-- ==== Sys2Proof/Word.lean ====
section
/-! DEFINITION. Word.lean: the types of words, ROM bytes and opcodes.

Arithmetic on words is `BitVec` arithmetic, which wraps modulo 2^32 silently as 00_scope.md R4 says: `x + y` is the
spec's add32, `x - y` its sub32, `-x` its neg32, `~~~x` its not32; `v.toNat` is its u(v) and `v.toInt` its s(v) (section 4). -/

namespace Sys2Proof

/-- A 32-bit pattern on an operand or result port (R3, R5). -/
abbrev Word := BitVec 32

/-- An entry, or an index, of the reversal ROM (R15). -/
abbrev Byte := BitVec 8

/-- The 5-bit opcode field of a request (R30). -/
abbrev Opcode := BitVec 5

end Sys2Proof
end

