-- ==== Sys2Proof/Machine/Operands.lean ====
section
/-! DEFINITION. Machine/Operands.lean: shifts, bytes and bits of operands (00_scope.md section 4, R6, R7, R22), and words
built from bits. -/

namespace Sys2Proof.Machine

/-- `sh(n)`: every shift amount that comes from data is taken modulo 32 (R6). -/
def shiftAmount (n : Word) : Nat := n.toNat % 32

/-- `lsl(v, n)`: logical shift left (R6, R7). -/
def lsl (v n : Word) : Word := v <<< shiftAmount n

/-- `lsr(v, n)`: logical shift right, zeros enter at the top (R6, R7). -/
def lsr (v n : Word) : Word := v >>> shiftAmount n

/-- `asr(v, n)`: arithmetic shift right, copies of bit 31 enter at the top (R6, R7). -/
def asr (v n : Word) : Word := v.sshiftRight (shiftAmount n)

/-- Byte `k` of a word: bits `8k+7` to `8k` (R22). -/
def byteOf (v : Word) (k : Nat) : Byte := v.extractLsb' (8 * k) 8

/-- The number whose bits 0 to `n - 1` are those of `f`. -/
def packBits : Nat → (Nat → Bool) → Nat
  | 0, _ => 0
  | n + 1, f => packBits n f + (f n).toNat * 2 ^ n

/-- The word whose bit `i` is `f i`. -/
def ofBits (f : Nat → Bool) : Word := BitVec.ofNat 32 (packBits 32 f)

/-- `popc(v)`: the number of bits of `v` that are 1 (00_scope.md section 4). -/
def popc (v : Word) : Nat := ((List.range 32).map fun i => (v.getLsbD i).toNat).sum

/-- The index of the lowest set bit, none for the word 0. -/
def lowestSet (v : Word) : Option Nat := (List.range 32).find? fun k => v.getLsbD k

/-- The index of the highest set bit, none for the word 0. -/
def highestSet (v : Word) : Option Nat := (List.range 32).reverse.find? fun k => v.getLsbD k

end Sys2Proof.Machine
end

