-- ==== Sys2Proof/Config.lean ====
section
/-! DEFINITION. Config.lean: what an implementation fixes, the free values, and the design constants of R3. -/

namespace Sys2Proof

/-- `LAT`, the cycles from request to response: OPEN in the spec (R3, R75, D18), so it has no value here.
DESIGN CHOICE, log 1: safe. -/
opaque Config.lat : Nat

/-- The free values: `Config.freeWord n` is the `n`-th word the machine draws where the spec leaves a word
unspecified (`r` for a reserved opcode, R35; `r` while `resp_valid` = 0, R16). No value of it can be proved.
DESIGN CHOICE, logs 2 and 3: safe. -/
opaque Config.freeWord : Nat → Word

/-- `XLEN` = 32, the width of every operand and of the result (R3); the assembler's `INT_BITS` (R38). -/
def Config.xlen : Nat := 32

/-- `INT_MAX`, the largest signed value (R3). -/
def Config.intMax : Word := 0x7FFFFFFF#32

/-- `INT_MIN` = not32(`INT_MAX`), the smallest signed value (R3). -/
def Config.intMin : Word := ~~~Config.intMax

end Sys2Proof
end

