-- ==== Sys2Proof/Syntax.lean ====
section
/-! DEFINITION. Syntax.lean: requests (R30), their formats, and the nineteen instructions (R31). -/

namespace Sys2Proof

/-- One request as it stands on the request port (R30): every request has all four fields. -/
structure Request where
  op : Opcode
  a : Word
  b : Word
  c : Word
  deriving DecidableEq, Repr

/-- The four formats of R30, saying which operand fields an opcode uses. -/
inductive Format where
  /-- `a` is used; `b` and `c` are ignored. -/
  | U
  /-- `a` and `b` are used; `c` is ignored. -/
  | B
  /-- `a` and the selector `b` are used, b[4:0] of it by the meaning (R30, R33, log 14); `c` is ignored. -/
  | S
  /-- `a`, `b` and `c` are used. -/
  | T
  deriving DecidableEq, Repr

/-- How many operand fields a format uses, `a` first, then `b`, then `c` (R30, R37). -/
def Format.arity : Format → Nat
  | .U => 1
  | .B => 2
  | .S => 2
  | .T => 3

/-- The instructions: one constructor for each row of spec/opcode_table.json, with the operand fields of its
format (R30 to R32), each a whole 32-bit word. An operand of which an opcode uses the low bits only (R33) is
narrowed by the opcode's meaning, as its rule says. -/
inductive Instr where
  | bcompl (a : Word)
  | sign (a : Word)
  | abs (a : Word)
  | min (a b : Word)
  | max (a b : Word)
  | ispow2 (a : Word)
  | log2 (a : Word)
  | log10 (a : Word)
  | popcnt (a : Word)
  | ctz (a : Word)
  | nextpow2 (a : Word)
  | prevpow2 (a : Word)
  | parity (a : Word)
  | bitrev (a : Word)
  | ilv2 (a b : Word)
  | dilv2 (a b : Word)
  | ilv3 (a b c : Word)
  | dilv3 (a b : Word)
  | nextcomb (a : Word)
  deriving DecidableEq, Repr

end Sys2Proof
end

