-- ==== Sys2Proof/WellFormed.lean ====
section
/-! DEFINITION. WellFormed.lean: which requests are instructions, and which of them are in the form the assembler
writes.

Every term of `Instr` is well formed: R36 says that a defined opcode accepts every value of its operands, and the
operands are 32-bit words by their type. So the checks are on the request record. -/

namespace Sys2Proof

/-- The format of an opcode (R30, R31); none for the thirteen reserved opcodes 0x13 to 0x1F (R35). -/
def Opcode.format (op : Opcode) : Option Format :=
  if op ∈ [3#5, 4#5, 14#5] then some .B
  else if op ∈ [15#5, 17#5] then some .S
  else if op = 16#5 then some .T
  else if op.toNat < 19 then some .U
  else none

/-- First check (R31, R35): the opcode is one of the nineteen. -/
def Request.isDefined (q : Request) : Bool := q.op.format.isSome

/-- The request with the operand fields its format ignores set to 0, which is how the assembler fills them
(R32, R37). In format S that is `c`: the selector `b` is kept whole, though R30 lists b[31:5] as ignored, as in the
printed request whose `b` is 0x21 (DESIGN CHOICE, log 13). A request with a reserved opcode is left as it is. -/
def Request.clearIgnored (q : Request) : Request :=
  match q.op.format with
  | some .U => { q with b := 0, c := 0 }
  | some .B => { q with c := 0 }
  | some .S => { q with c := 0 }
  | some .T => q
  | none => q

/-- The bits of `a`, `b` and `c` that an opcode uses (R30, R33); the others have no effect. Of a reserved opcode no
operand is used (R35). -/
def Opcode.usedMasks (op : Opcode) : Word × Word × Word :=
  if op ∈ [3#5, 4#5] then (0xFFFFFFFF, 0xFFFFFFFF, 0)
  else if op = 14#5 then (0x0000FFFF, 0x0000FFFF, 0)
  else if op ∈ [15#5, 17#5] then (0xFFFFFFFF, 0x0000001F, 0)
  else if op = 16#5 then (0x000003FF, 0x000003FF, 0x000003FF)
  else if op.toNat < 19 then (0xFFFFFFFF, 0, 0)
  else (0, 0, 0)

/-- The request with every bit cleared that its opcode does not use (R30, R33). -/
def Request.usedOnly (q : Request) : Request :=
  { q with a := q.a &&& q.op.usedMasks.1, b := q.b &&& q.op.usedMasks.2.1, c := q.c &&& q.op.usedMasks.2.2 }

/-- Second check (R37): the fields that the format ignores hold 0, a selector being kept whole (log 13). Not required
of a request on the port (R36). -/
def Request.ignoredAreZero (q : Request) : Bool := q.clearIgnored == q

/-- A well-formed request: a defined opcode, in the form the assembler writes. -/
def Request.wellFormed (q : Request) : Bool := q.isDefined && q.ignoredAreZero

end Sys2Proof
end

