-- ==== Sys2Proof/Decode.lean ====
section
/-! DEFINITION. Decode.lean: from the fields of a request, or its packed 101-bit form, to an instruction (R30 to
R36), and back. -/

namespace Sys2Proof

/-- Why a bit pattern is no instruction. Safe: the rejection is only an answer; the machine itself answers a
request with a reserved opcode as R35 says (Machine/Ops.lean). -/
inductive DecodeError where
  /-- The opcode is one of 0x13 to 0x1F (R35). Raised by `decode`. Safe. -/
  | reservedOpcode (op : Opcode)
  /-- The number has a bit above bit 100, so it is no `REQ` vector (R30: the top three of the 104 printed bits are
  always 0). Raised by `decodePacked`. Safe, log 12. -/
  | notARequest (w : Nat)
  deriving DecidableEq, Repr

/-- The opcode map of R31. The opcode alone decides; the fields a format ignores are dropped here (R32, R36). -/
def decode (q : Request) : Except DecodeError Instr :=
  match q.op with
  | 0x00#5 => .ok (.bcompl q.a)
  | 0x01#5 => .ok (.sign q.a)
  | 0x02#5 => .ok (.abs q.a)
  | 0x03#5 => .ok (.min q.a q.b)
  | 0x04#5 => .ok (.max q.a q.b)
  | 0x05#5 => .ok (.ispow2 q.a)
  | 0x06#5 => .ok (.log2 q.a)
  | 0x07#5 => .ok (.log10 q.a)
  | 0x08#5 => .ok (.popcnt q.a)
  | 0x09#5 => .ok (.ctz q.a)
  | 0x0A#5 => .ok (.nextpow2 q.a)
  | 0x0B#5 => .ok (.prevpow2 q.a)
  | 0x0C#5 => .ok (.parity q.a)
  | 0x0D#5 => .ok (.bitrev q.a)
  | 0x0E#5 => .ok (.ilv2 q.a q.b)
  | 0x0F#5 => .ok (.dilv2 q.a q.b)
  | 0x10#5 => .ok (.ilv3 q.a q.b q.c)
  | 0x11#5 => .ok (.dilv3 q.a q.b)
  | 0x12#5 => .ok (.nextcomb q.a)
  | op => .error (.reservedOpcode op)

/-- The fields of a packed request: `REQ[100:96]` is `op`, `REQ[95:64]` is `c`, `REQ[63:32]` is `b`, `REQ[31:0]` is
`a` (R30). -/
def Request.ofVector (v : BitVec 101) : Request where
  op := v.extractLsb' 96 5
  c := v.extractLsb' 64 32
  b := v.extractLsb' 32 32
  a := v.extractLsb' 0 32

/-- The packed form of a request (R30). -/
def Request.toVector (q : Request) : BitVec 101 := q.op ++ q.c ++ q.b ++ q.a

/-- The packed request a number stands for, if it is one: the number's bits above bit 100 are 0 (R30). -/
def Request.ofPacked (w : Nat) : Option Request :=
  if w < 2 ^ 101 then some (Request.ofVector (BitVec.ofNat 101 w)) else none

/-- The instruction a packed request stands for; total on every number, rejecting by name. -/
def decodePacked (w : Nat) : Except DecodeError Instr :=
  match Request.ofPacked w with
  | some q => decode q
  | none => .error (.notARequest w)

/-- The host's reading of a table row's bits, numbered as spec/opcode_table.json numbers them: bit `i` of `w` is
`REQ[i]` (R30), and the bits from `nbits` up are 0. -/
def decodeTableWord (nbits w : Nat) : Option Instr := (decodePacked (w % 2 ^ nbits)).toOption

/-- The encoder: the request an instruction is presented as, the fields its format ignores 0 and a selector whole
(R31, R32, R37; logs 13 and 14). -/
def encode : Instr → Request
  | .bcompl a => { op := 0x00, a := a, b := 0, c := 0 }
  | .sign a => { op := 0x01, a := a, b := 0, c := 0 }
  | .abs a => { op := 0x02, a := a, b := 0, c := 0 }
  | .min a b => { op := 0x03, a := a, b := b, c := 0 }
  | .max a b => { op := 0x04, a := a, b := b, c := 0 }
  | .ispow2 a => { op := 0x05, a := a, b := 0, c := 0 }
  | .log2 a => { op := 0x06, a := a, b := 0, c := 0 }
  | .log10 a => { op := 0x07, a := a, b := 0, c := 0 }
  | .popcnt a => { op := 0x08, a := a, b := 0, c := 0 }
  | .ctz a => { op := 0x09, a := a, b := 0, c := 0 }
  | .nextpow2 a => { op := 0x0A, a := a, b := 0, c := 0 }
  | .prevpow2 a => { op := 0x0B, a := a, b := 0, c := 0 }
  | .parity a => { op := 0x0C, a := a, b := 0, c := 0 }
  | .bitrev a => { op := 0x0D, a := a, b := 0, c := 0 }
  | .ilv2 a b => { op := 0x0E, a := a, b := b, c := 0 }
  | .dilv2 a b => { op := 0x0F, a := a, b := b, c := 0 }
  | .ilv3 a b c => { op := 0x10, a := a, b := b, c := c }
  | .dilv3 a b => { op := 0x11, a := a, b := b, c := 0 }
  | .nextcomb a => { op := 0x12, a := a, b := 0, c := 0 }

/-- The packed form of an instruction, as a number (R30). -/
def encodePacked (i : Instr) : Nat := (encode i).toVector.toNat

end Sys2Proof
end

