-- ==== Sys2Proof/Machine/State.lean ====
section
/-! DEFINITION. Machine/State.lean: the state of the block as plain data (10_state.md), its reset value (R18, R71), and
the reasons a step can stop, of which the spec gives none (R60, R76). -/

namespace Sys2Proof.Machine

/-- The input ports in one cycle (R16). `clk` has no field: one step is one rising edge (DEDUCED, log 5, safe). -/
structure PortIn where
  /-- `rst`, synchronous, active high (R70). -/
  rst : Bool
  /-- `req_valid`: the host presents a request in this cycle. -/
  reqValid : Bool
  /-- `op`, `a`, `b`, `c`: sampled only when `req_valid` = 1. -/
  req : Request
  deriving DecidableEq, Repr

/-- A host that presents nothing and does not reset. The data lines, which R16 says are ignored then, stand at 0
(DESIGN CHOICE, log 6). -/
def PortIn.idle : PortIn :=
  { rst := false, reqValid := false, req := { op := 0, a := 0, b := 0, c := 0 } }

/-- A request in flight (R17): the result it will be answered with, which R16 and R9 say is computed from the values
sampled with the request and from nothing else, and the cycles still to pass before the cycle of its response
(DEDUCED, log 8, safe). -/
structure InFlight where
  answer : Word
  wait : Nat
  deriving DecidableEq, Repr

/-- The block at a rising edge of `clk`. -/
structure State where
  /-- `LAT` (R75): the implementation's latency. No step writes it, and every statement over all states is one over
  every latency (log 1). -/
  lat : Nat
  /-- The input ports in the cycle about to be stepped (R16). -/
  port : PortIn
  /-- `resp_valid` as it was in the cycle of the last step (R16). -/
  respValid : Bool
  /-- `r` as it was in the cycle of the last step (R16). -/
  r : Word
  /-- The requests accepted whose responses are not yet out, oldest first (R17). -/
  inFlight : List InFlight
  /-- MODEL's own: what the host drives on the input ports in the cycles after this one; idle when it runs out
  (DESIGN CHOICE, log 6). -/
  drive : List PortIn
  /-- MODEL's own: how many free values have been drawn (log 4). -/
  draws : Nat
  deriving DecidableEq, Repr

/-- Right after reset (R18, R71): nothing in flight, `resp_valid` = 0, `r` unspecified (a free value, log 3), the
input ports idle (log 7). -/
def State.reset : State where
  lat := Config.lat
  port := PortIn.idle
  respValid := false
  r := Config.freeWord 0
  inFlight := []
  drive := []
  draws := 1

/-- The faults of the block: none. R60: the set of exception causes is empty, and no rule raises anything. -/
inductive Fault where
  deriving DecidableEq, Repr

/-- The refusals of the model. -/
inductive Refusal where
  /-- An instruction that has no meaning yet; raised by `exec`'s refused arms, of which there are none. Safe. -/
  | notModelled (mnemonic : String)
  deriving DecidableEq, Repr

end Sys2Proof.Machine
end

