-- ==== Sys2Proof/Machine/Ops.lean ====
section
/-! DEFINITION. Machine/Ops.lean: the operations on the state that every instruction and every cycle share.

A cycle (R16) is: sample the input ports; accept the request they present, if any; put out the response that is due; let
the remaining requests grow one cycle older; let the host drive the next cycle. The block takes no exception and returns
from none (R60, R63, R64), so there is no operation for either; reset is the one event that is no request (R62, R70). -/

namespace Sys2Proof.Machine

/-- Accept a request whose result is `answer`: it is in flight with `LAT` cycles to wait (R16, R17). -/
def State.accept (s : State) (answer : Word) : State :=
  { s with inFlight := s.inFlight ++ [{ answer := answer, wait := s.lat }] }

/-- Accept a request with a reserved opcode (R35): it is answered on time with an unspecified `r`, a value drawn
afresh for this request, and nothing else happens (DESIGN CHOICE, log 2, safe). -/
def State.acceptReserved (s : State) : State :=
  { s with
    inFlight := s.inFlight ++ [{ answer := Config.freeWord s.draws, wait := s.lat }]
    draws := s.draws + 1 }

/-- The response port in a cycle without a response: `resp_valid` = 0 and an unspecified `r` (R16, R18), a value drawn
afresh for this cycle (DESIGN CHOICE, log 3, safe). -/
def State.noResponse (s : State) : State :=
  { s with respValid := false, r := Config.freeWord s.draws, draws := s.draws + 1 }

/-- The response port in a cycle (R16, R26): the oldest request in flight is answered if its wait is over. -/
def State.respond (s : State) : State :=
  match s.inFlight with
  | [] => s.noResponse
  | e :: rest =>
    if e.wait = 0 then { s with respValid := true, r := e.answer, inFlight := rest } else s.noResponse

/-- Every request still in flight has one cycle less to wait (R17, R75). -/
def State.age (s : State) : State :=
  { s with inFlight := s.inFlight.map fun e => { e with wait := e.wait - 1 } }

/-- The host drives the input ports of the next cycle (R16; log 6). -/
def State.nextInputs (s : State) : State :=
  match s.drive with
  | [] => { s with port := PortIn.idle }
  | p :: ps => { s with port := p, drive := ps }

/-- The rest of a cycle after its request, if any, has been accepted. -/
def State.finishCycle (s : State) : State := s.respond.age.nextInputs

/-- A cycle with `rst` = 1 (R70): no request is accepted, `resp_valid` = 0, and every request in flight is dropped. -/
def State.resetCycle (s : State) : State := State.nextInputs (State.noResponse { s with inFlight := [] })

/-- What the block samples from its input ports at the edge (R16, R35, R62, R70). -/
inductive Sampled where
  /-- `rst` = 1, which wins over `req_valid` (R62). -/
  | reset
  /-- `req_valid` = 0: the data lines are ignored (R16). -/
  | nothing
  /-- A request with a defined opcode. -/
  | instr (i : Instr)
  /-- A request with a reserved opcode (R35). -/
  | reserved
  deriving DecidableEq, Repr

/-- Sampling the input ports (R16, R31, R35, R62, R70). -/
def State.sample (s : State) : Sampled :=
  if s.port.rst then .reset
  else if s.port.reqValid then
    match decode s.port.req with
    | .ok i => .instr i
    | .error _ => .reserved
  else .nothing

/-- The input ports with one packed request presented on them; nothing is presented if the number is no `REQ` vector
(R30, log 12). -/
def PortIn.present (w : Nat) : PortIn :=
  match Request.ofPacked w with
  | some q => { rst := false, reqValid := true, req := q }
  | none => PortIn.idle

end Sys2Proof.Machine
end

