-- ==== Sys2Proof/Machine/Count.lean ====
section
/-! DEFINITION. Machine/Count.lean: population count and trailing-zero count (42_count.md, R48, R49). -/

namespace Sys2Proof.Machine

/-- R48: the number of set bits. -/
def popcntResult (a : Word) : Word := BitVec.ofNat 32 (popc a)

/-- POPCNT (R48). -/
def execPopcnt (a : Word) (s : State) : Host.Outcome State Fault Refusal := .next (s.accept (popcntResult a))

/-- R49: the index of the lowest set bit, and the sentinel 32 for the word 0. -/
def ctzResult (a : Word) : Word := BitVec.ofNat 32 ((lowestSet a).getD 32)

/-- CTZ (R49). -/
def execCtz (a : Word) (s : State) : Host.Outcome State Fault Refusal := .next (s.accept (ctzResult a))

end Sys2Proof.Machine
end

