-- ==== Sys2Proof/Machine/Morton.lean ====
section
/-! DEFINITION. Machine/Morton.lean: Morton interleave and de-interleave (45_morton.md, R54 to R57), each by its
definition on bits. -/

namespace Sys2Proof.Machine

/-- R54: bit `2i` is `a[i]` and bit `2i+1` is `b[i]`, `i` = 0 to 15; the upper halves of `a` and `b` are ignored
(R33). -/
def ilv2Result (a b : Word) : Word :=
  ofBits fun j => if j % 2 = 0 then a.getLsbD (j / 2) else b.getLsbD (j / 2)

/-- ILV2 (R54). -/
def execIlv2 (a b : Word) (s : State) : Host.Outcome State Fault Refusal := .next (s.accept (ilv2Result a b))

/-- R55: of the code shifted right by `b` modulo 32, bit `2i` to bit `i`, `i` = 0 to 15, zero-extended. -/
def dilv2Result (a b : Word) : Word := ofBits fun i => decide (i < 16) && (lsr a b).getLsbD (2 * i)

/-- DILV2 (R55). -/
def execDilv2 (a b : Word) (s : State) : Host.Outcome State Fault Refusal := .next (s.accept (dilv2Result a b))

/-- R56: bit `3i` is `a[i]`, bit `3i+1` is `b[i]`, bit `3i+2` is `c[i]`, `i` = 0 to 9; bits 31 and 30 are 0. -/
def ilv3Result (a b c : Word) : Word :=
  ofBits fun j =>
    decide (j < 30) &&
      (if j % 3 = 0 then a.getLsbD (j / 3) else if j % 3 = 1 then b.getLsbD (j / 3) else c.getLsbD (j / 3))

/-- ILV3 (R56). -/
def execIlv3 (a b c : Word) (s : State) : Host.Outcome State Fault Refusal := .next (s.accept (ilv3Result a b c))

/-- R57: of the code shifted right by `b` modulo 32, bit `3i` to bit `i`, `i` = 0 to 9, zero-extended. -/
def dilv3Result (a b : Word) : Word := ofBits fun i => decide (i < 10) && (lsr a b).getLsbD (3 * i)

/-- DILV3 (R57). -/
def execDilv3 (a b : Word) (s : State) : Host.Outcome State Fault Refusal := .next (s.accept (dilv3Result a b))

end Sys2Proof.Machine
end

