-- ==== Sys2Proof/Machine/NextComb.lean ====
section
/-! DEFINITION. Machine/NextComb.lean: the next word of equal population count (46_nextcomb.md, R58). -/

namespace Sys2Proof.Machine

/-- `t` of R58: `a` with its trailing zeros filled with ones. -/
def nextcombFilled (a : Word) : Word := a ||| (a - 1)

/-- `g` of R58: the lowest set bit of the complement of `t`, less one; all ones when `t` is all ones. -/
def nextcombGap (a : Word) : Word := (~~~(nextcombFilled a) &&& -(~~~(nextcombFilled a))) - 1

/-- R58: the printed formula, with every step wrapping (R4) and the shift amount, the trailing-zero count plus one,
taken modulo 32 (R6). The count is made inside the operation (C12), its sentinel 32 included. -/
def nextcombResult (a : Word) : Word := (nextcombFilled a + 1) ||| lsr (nextcombGap a) (ctzResult a + 1)

/-- NEXTCOMB (R58). -/
def execNextcomb (a : Word) (s : State) : Host.Outcome State Fault Refusal := .next (s.accept (nextcombResult a))

end Sys2Proof.Machine
end

