-- ==== Sys2Proof/Machine/Flags.lean ====
section
/-! DEFINITION. Machine/Flags.lean: truth values carried in words. The block has no flags or condition codes (R13): an
operation whose answer is a truth value returns it in `r` (R34). -/

namespace Sys2Proof.Machine

/-- `bool(p)`: the word 1 when `p` holds, else the word 0 (00_scope.md section 4, R34). -/
def boolWord (p : Bool) : Word := if p then 1#32 else 0#32

/-- `bcast(p)`: all ones when `p` holds, else 0 (00_scope.md section 4). -/
def bcast (p : Bool) : Word := if p then 0xFFFFFFFF#32 else 0#32

/-- `s(x) < s(y)`, the exact order of the two signed values (R8). -/
def signedLt (x y : Word) : Bool := decide (x.toInt < y.toInt)

end Sys2Proof.Machine
end

