-- ==== Sys2Proof/Machine/ParityReverse.lean ====
section
/-! DEFINITION. Machine/ParityReverse.lean: parity and bit reversal (44_parity_reverse.md, R52, R53). -/

namespace Sys2Proof.Machine

/-- R52: the exclusive or of the thirty-two bits, zero-extended. -/
def parityResult (a : Word) : Word :=
  boolWord ((List.range 32).foldl (fun p i => Bool.xor p (a.getLsbD i)) false)

/-- PARITY (R52). -/
def execParity (a : Word) (s : State) : Host.Outcome State Fault Refusal := .next (s.accept (parityResult a))

/-- R53: four reads of the ROM (R24), one for each byte of `a`, put together in reverse byte order. -/
def bitrevResult (a : Word) : Word :=
  rev8 (byteOf a 0) ++ rev8 (byteOf a 1) ++ rev8 (byteOf a 2) ++ rev8 (byteOf a 3)

/-- BITREV (R53). -/
def execBitrev (a : Word) (s : State) : Host.Outcome State Fault Refusal := .next (s.accept (bitrevResult a))

end Sys2Proof.Machine
end

