-- ==== Sys2Proof/Machine/Pow2Log.lean ====
section
/-! DEFINITION. Machine/Pow2Log.lean: power-of-two test and logarithms (41_pow2_log.md, R45 to R47). -/

namespace Sys2Proof.Machine

/-- R45: the printed formula, `a - 1` wrapping; INT_MIN answers 1 (C2). -/
def ispow2Result (a : Word) : Word := boolWord (a != 0 && (a &&& (a - 1)) == 0)

/-- ISPOW2 (R45). -/
def execIspow2 (a : Word) (s : State) : Host.Outcome State Fault Refusal := .next (s.accept (ispow2Result a))

/-- R46: the index of the highest set bit, and 0 for the word 0 (C9). -/
def log2Result (a : Word) : Word := BitVec.ofNat 32 ((highestSet a).getD 0)

/-- LOG2 (R46). -/
def execLog2 (a : Word) (s : State) : Host.Outcome State Fault Refusal := .next (s.accept (log2Result a))

/-- R47: the number of `k` in 1 to 9 with `s(a) >= 10^k`; the comparisons are signed. -/
def log10Result (a : Word) : Word :=
  BitVec.ofNat 32 ([1, 2, 3, 4, 5, 6, 7, 8, 9].countP fun k => decide ((10 : Int) ^ k ≤ a.toInt))

/-- LOG10 (R47). -/
def execLog10 (a : Word) (s : State) : Host.Outcome State Fault Refusal := .next (s.accept (log10Result a))

end Sys2Proof.Machine
end

