-- ==== Sys2Proof/Machine/Round.lean ====
section
/-! DEFINITION. Machine/Round.lean: rounding to a power of two (43_pow2_round.md, R50, R51). -/

namespace Sys2Proof.Machine

/-- One step of the OR-shift cascade. -/
def fillStep (k : Nat) (v : Word) : Word := v ||| (v >>> k)

/-- `fill(v)`: the OR-shift cascade by 1, 2, 4, 8, 16 (43_pow2_round.md). -/
def fill (v : Word) : Word := fillStep 16 (fillStep 8 (fillStep 4 (fillStep 2 (fillStep 1 v))))

/-- R50: zero counts as one; decrement, fill, increment. -/
def nextpow2Result (a : Word) : Word := fill ((if a = 0 then 1 else a) - 1) + 1

/-- NEXTPOW2 (R50). -/
def execNextpow2 (a : Word) (s : State) : Host.Outcome State Fault Refusal := .next (s.accept (nextpow2Result a))

/-- R51: the word that keeps only the highest set bit; 0 for the word 0. -/
def prevpow2Result (a : Word) : Word :=
  match highestSet a with
  | some k => 1#32 <<< k
  | none => 0

/-- PREVPOW2 (R51). -/
def execPrevpow2 (a : Word) (s : State) : Host.Outcome State Fault Refusal := .next (s.accept (prevpow2Result a))

end Sys2Proof.Machine
end

