-- ==== Sys2Proof/Machine/Select.lean ====
section
/-! DEFINITION. Machine/Select.lean: complement, sign, absolute value, minimum, maximum (40_select.md, R40 to R44). -/

namespace Sys2Proof.Machine

/-- R40: every bit inverted, not32(a). -/
def bcomplResult (a : Word) : Word := ~~~a

/-- BCOMPL (R40). -/
def execBcompl (a : Word) (s : State) : Host.Outcome State Fault Refusal := .next (s.accept (bcomplResult a))

/-- R41: 1, -1 or 0 by the signed value. -/
def signResult (a : Word) : Word :=
  if 0 < a.toInt then 0x00000001#32 else if a.toInt < 0 then 0xFFFFFFFF#32 else 0x00000000#32

/-- SIGN (R41). -/
def execSign (a : Word) (s : State) : Host.Outcome State Fault Refusal := .next (s.accept (signResult a))

/-- R42: `a`, or neg32(a) when bit 31 is set; INT_MIN wraps to itself. -/
def absResult (a : Word) : Word := if a.getLsbD 31 then -a else a

/-- ABS (R42). -/
def execAbs (a : Word) (s : State) : Host.Outcome State Fault Refusal := .next (s.accept (absResult a))

/-- R43: the signed minimum. -/
def minResult (a b : Word) : Word := if signedLt a b then a else b

/-- MIN (R43). -/
def execMin (a b : Word) (s : State) : Host.Outcome State Fault Refusal := .next (s.accept (minResult a b))

/-- R44: the signed maximum. -/
def maxResult (a b : Word) : Word := if signedLt a b then b else a

/-- MAX (R44). -/
def execMax (a b : Word) (s : State) : Host.Outcome State Fault Refusal := .next (s.accept (maxResult a b))

end Sys2Proof.Machine
end

