-- ==== Sys2Proof/Machine/Dispatch.lean ====
section
/-! DEFINITION. Machine/Dispatch.lean: each instruction to its meaning (R31). -/

namespace Sys2Proof.Machine

/-- What accepting a request does, by its opcode (R31). Every instruction has its meaning. -/
def exec (i : Instr) (s : State) : Host.Outcome State Fault Refusal :=
  match i with
  | .bcompl a => Sys2Proof.Machine.execBcompl a s
  | .sign a => Sys2Proof.Machine.execSign a s
  | .abs a => Sys2Proof.Machine.execAbs a s
  | .min a b => Sys2Proof.Machine.execMin a b s
  | .max a b => Sys2Proof.Machine.execMax a b s
  | .ispow2 a => Sys2Proof.Machine.execIspow2 a s
  | .log2 a => Sys2Proof.Machine.execLog2 a s
  | .log10 a => Sys2Proof.Machine.execLog10 a s
  | .popcnt a => Sys2Proof.Machine.execPopcnt a s
  | .ctz a => Sys2Proof.Machine.execCtz a s
  | .nextpow2 a => Sys2Proof.Machine.execNextpow2 a s
  | .prevpow2 a => Sys2Proof.Machine.execPrevpow2 a s
  | .parity a => Sys2Proof.Machine.execParity a s
  | .bitrev a => Sys2Proof.Machine.execBitrev a s
  | .ilv2 a b => Sys2Proof.Machine.execIlv2 a b s
  | .dilv2 a b => Sys2Proof.Machine.execDilv2 a b s
  | .ilv3 a b c => Sys2Proof.Machine.execIlv3 a b c s
  | .dilv3 a b => Sys2Proof.Machine.execDilv3 a b s
  | .nextcomb a => Sys2Proof.Machine.execNextcomb a s

end Sys2Proof.Machine
end

