-- ==== Sys2Proof/Machine/Step.lean ====
section
/-! DEFINITION. Machine/Step.lean: one cycle of the block, at one rising edge of `clk` (R16, R70). -/

namespace Sys2Proof.Machine

/-- One cycle: a reset cycle (R70), an idle cycle (R16), a cycle that accepts a request with a reserved opcode (R35),
or a cycle that accepts an instruction and does what `exec` says. -/
def step (s : State) : Host.Outcome State Fault Refusal :=
  match s.sample with
  | .reset => .next s.resetCycle
  | .nothing => .next s.finishCycle
  | .reserved => .next s.acceptReserved.finishCycle
  | .instr i =>
    match exec i s with
    | .next t => .next t.finishCycle
    | .fault f => .fault f
    | .refused f => .refused f

/-- `s` with one packed request presented on its input ports, so that the very next step accepts it (log 9). The
block fetches nothing (R12): the host presents a request, and this stands for that. -/
def State.withFetchWord (s : State) (nbits w : Nat) : State := { s with port := PortIn.present (w % 2 ^ nbits) }

end Sys2Proof.Machine
end

