-- ==== Sys2Proof/Machine/Result.lean ====
section
/-! DEFINITION. Machine/Result.lean: the block as a function of its request (R9, R31). -/

namespace Sys2Proof.Machine

/-- The result of an instruction: `exec(op, a, b, c)` of R31, by opcode. -/
def result : Instr → Word
  | .bcompl a => bcomplResult a
  | .sign a => signResult a
  | .abs a => absResult a
  | .min a b => minResult a b
  | .max a b => maxResult a b
  | .ispow2 a => ispow2Result a
  | .log2 a => log2Result a
  | .log10 a => log10Result a
  | .popcnt a => popcntResult a
  | .ctz a => ctzResult a
  | .nextpow2 a => nextpow2Result a
  | .prevpow2 a => prevpow2Result a
  | .parity a => parityResult a
  | .bitrev a => bitrevResult a
  | .ilv2 a b => ilv2Result a b
  | .dilv2 a b => dilv2Result a b
  | .ilv3 a b c => ilv3Result a b c
  | .dilv3 a b => dilv3Result a b
  | .nextcomb a => nextcombResult a

/-- The result of a request, whatever its ignored fields hold; none for a reserved opcode, whose `r` is unspecified
(R35). -/
def resultOfRequest (q : Request) : Option Word := (decode q).toOption.map result

end Sys2Proof.Machine
end

