-- ==== Sys2Proof/Machine/Assembler.lean ====
section
/-! DEFINITION. Machine/Assembler.lean: the assembler's lines and symbols (30_encoding.md R37, R38), and the request stream as
the host resolves it (R37, R73). This is the host's side of the request port: the block holds no earlier result (R10). -/

namespace Sys2Proof.Machine

/-- An operand of a line: a literal word, or `$k`, the result of line `k` of the same stream (R37). -/
inductive Operand where
  | word (w : Word)
  | resultOf (k : Nat)
  deriving DecidableEq, Repr

/-- A line: its mnemonic's opcode and its operands in the order they are written (R37). -/
structure Line where
  op : Opcode
  operands : List Operand
  deriving DecidableEq, Repr

/-- Why a text or a line is no request. Safe: these are the assembler's answers; nothing of the block stops. -/
inductive AsmError where
  /-- No mnemonic or alias of R37. Safe. -/
  | unknownMnemonic
  /-- An operand that is none of R37's five forms, or a number that does not fit 32 bits. Safe. -/
  | badOperand
  /-- More or fewer operands than the format's fields (R37). Safe. -/
  | operandCount
  /-- `$k` before response `k` has been received (R37). Safe. -/
  | resultNotReceived (k : Nat)
  deriving DecidableEq, Repr

/-- The mnemonics of R31 and their aliases, the BT names of R37, in the order of their opcodes. -/
def mnemonicTable : List (String × String) :=
  [("BCOMPL", "bitwiseComplement"), ("SIGN", "sign"), ("ABS", "abs"), ("MIN", "min"), ("MAX", "max"),
   ("ISPOW2", "isPowerOfTwo"), ("LOG2", "log2"), ("LOG10", "log10"), ("POPCNT", "popCount"),
   ("CTZ", "countTrailingZeros"), ("NEXTPOW2", "nextPowerOfTwo"), ("PREVPOW2", "prevPowerOfTwo"),
   ("PARITY", "parity"), ("BITREV", "reverseBits"), ("ILV2", "interleave2"), ("DILV2", "deinterleave2"),
   ("ILV3", "interleave3"), ("DILV3", "deinterleave3"), ("NEXTCOMB", "nextCombination")]

/-- The opcode a mnemonic or an alias stands for (R37). -/
def mnemonicOpcode (name : List Char) : Option Opcode :=
  (mnemonicTable.findIdx? fun row => row.1.toList == name || row.2.toList == name).map (BitVec.ofNat 5)

/-- The predefined symbols (R38). -/
def symbolValue (name : List Char) : Option Word :=
  if name = "INT_BITS".toList then some (BitVec.ofNat 32 Config.xlen)
  else if name = "INT_MAX".toList then some Config.intMax
  else if name = "INT_MIN".toList then some Config.intMin
  else none

/-- The value of a digit in a base up to 16; both cases of a hexadecimal letter are read (DESIGN CHOICE, log 13). -/
def digitValue (base : Nat) (ch : Char) : Option Nat :=
  let v :=
    if '0' ≤ ch ∧ ch ≤ '9' then ch.toNat - '0'.toNat
    else if 'a' ≤ ch ∧ ch ≤ 'f' then ch.toNat - 'a'.toNat + 10
    else if 'A' ≤ ch ∧ ch ≤ 'F' then ch.toNat - 'A'.toNat + 10
    else base
  if v < base then some v else none

/-- A number continued by more digits. -/
def readDigits (base acc : Nat) : List Char → Option Nat
  | [] => some acc
  | ch :: rest =>
    match digitValue base ch with
    | some d => readDigits base (acc * base + d) rest
    | none => none

/-- A number of at least one digit, leading zeros included (DESIGN CHOICE, log 13). -/
def readNumber (base : Nat) : List Char → Option Nat
  | [] => none
  | ds => readDigits base 0 ds

/-- A number as a word, if it fits 32 bits (R37). -/
def wordOfNumber (n : Nat) : Option Word := if n < 2 ^ 32 then some (BitVec.ofNat 32 n) else none

/-- The five forms of an operand (R37): `$` index, `-` decimal (neg32 of the number), `0x` hex, decimal, symbol.
No blank stands inside an operand, and in `-n` the number `n` is what must fit 32 bits (DESIGN CHOICE, log 13). -/
def readOperand : List Char → Option Operand
  | '$' :: ds => (readNumber 10 ds).map .resultOf
  | '-' :: ds => ((readNumber 10 ds).bind wordOfNumber).map fun w => .word (-w)
  | '0' :: 'x' :: ds => ((readNumber 16 ds).bind wordOfNumber).map .word
  | cs =>
    match readNumber 10 cs with
    | some n => (wordOfNumber n).map .word
    | none => (symbolValue cs).map .word

/-- White space between the parts of a line: a blank or a tab (DESIGN CHOICE, log 13). -/
def isBlank (ch : Char) : Bool := ch == ' ' || ch == '\t'

/-- White space removed at both ends. -/
def trimBlanks (cs : List Char) : List Char := ((cs.dropWhile isBlank).reverse.dropWhile isBlank).reverse

/-- The parts of a text between commas; one part if there is no comma. -/
def splitCommas : List Char → List (List Char)
  | [] => [[]]
  | ch :: rest =>
    if ch = ',' then [] :: splitCommas rest
    else
      match splitCommas rest with
      | part :: parts => (ch :: part) :: parts
      | [] => [[ch]]

/-- A line of text: mnemonic, operands between commas, and a comment from `;` on (R37). White space may stand around
every part, and some must stand between the mnemonic and its first operand, so that `CTZ$0` and `CTZ-1` are no lines;
the grammar of R37 is silent on white space (DESIGN CHOICE, log 13). -/
def readLine (text : String) : Except AsmError Line :=
  let body := trimBlanks (text.toList.takeWhile (· != ';'))
  match mnemonicOpcode (body.takeWhile fun ch => !isBlank ch) with
  | none => .error .unknownMnemonic
  | some op =>
    match (splitCommas (body.dropWhile fun ch => !isBlank ch)).mapM fun part => readOperand (trimBlanks part) with
    | none => .error .badOperand
    | some operands => .ok { op := op, operands := operands }

/-- The value of an operand, given the results of the earlier lines (R37). -/
def operandValue (results : List Word) : Operand → Except AsmError Word
  | .word w => .ok w
  | .resultOf k =>
    match results[k]? with
    | some w => .ok w
    | none => .error (.resultNotReceived k)

/-- The request a line stands for, given the results of the earlier lines (R37): operands fill `a`, `b`, `c` in order,
and the fields the format ignores are 0; a selector fills the whole of `b` (DESIGN CHOICE, log 13). -/
def assemble (results : List Word) (line : Line) : Except AsmError Request :=
  match line.op.format with
  | none => .error .unknownMnemonic
  | some f =>
    if line.operands.length = f.arity then
      match line.operands.mapM (operandValue results) with
      | .ok ws => .ok { op := line.op, a := ws.getD 0 0, b := ws.getD 1 0, c := ws.getD 2 0 }
      | .error e => .error e
    else .error .operandCount

/-- The results of a stream of lines, top to bottom, each `$k` resolved by the host from the results before it (R37);
the results do not depend on `LAT` or on the cycles the lines are issued in (R9, R26). -/
def streamResults (done : List Word) : List Line → Except AsmError (List Word)
  | [] => .ok done
  | line :: rest =>
    match assemble done line with
    | .error e => .error e
    | .ok q =>
      match resultOfRequest q with
      | some w => streamResults (done ++ [w]) rest
      | none => .error .unknownMnemonic

/-- The earliest cycle in which the host can present a request that names the result of a request presented in cycle
`t` (R73): cycle `t + LAT`, one more if the host registers the response, and never the same cycle. -/
def earliestDependentIssue (lat t : Nat) (registers : Bool) : Nat := Nat.max (t + 1) (t + lat + registers.toNat)

end Sys2Proof.Machine
end

