-- ==== Sys2Proof/Machine/Datapath.lean ====
section
/-! DEFINITION. Machine/Datapath.lean: the reference datapaths of files 40 to 46, the mask-and-shift cascades. They are not
the meanings (00_scope.md section 6: the definitions are normative, and U19: the datapath is not observable); statements
say that each computes its definition. The datapaths of ISPOW2, NEXTPOW2, BITREV and NEXTCOMB are their meanings. -/

namespace Sys2Proof.Machine

/-- R40: neg32(add32(a, 1)). -/
def bcomplPath (a : Word) : Word := -(a + 1)

/-- R41: the difference of the two comparisons. -/
def signPath (a : Word) : Word := boolWord (decide (0 < a.toInt)) - boolWord (decide (a.toInt < 0))

/-- R42: the sign mask, then exclusive or and subtract. -/
def absPath (a : Word) : Word := (a ^^^ asr a 31) - asr a 31

/-- R43: selection by the broadcast comparison. -/
def minPath (a b : Word) : Word := b ^^^ ((a ^^^ b) &&& bcast (signedLt a b))

/-- R44: the same mask applied to the other operand. -/
def maxPath (a b : Word) : Word := a ^^^ ((a ^^^ b) &&& bcast (signedLt a b))

/-- One stage of R46's search: the shift amount, 2^`e` if `v` exceeds `bound` and 0 otherwise. -/
def log2Shift (v bound : Word) (e : Nat) : Word := boolWord (decide (bound.toNat < v.toNat)) <<< e

/-- R46: the binary-search cascade accumulating the exponent. -/
def log2Path (a : Word) : Word :=
  let q := log2Shift a 0xFFFF#32 4
  let v := lsr a q
  let s3 := log2Shift v 0xFF#32 3
  let v := lsr v s3
  let s2 := log2Shift v 0xF#32 2
  let v := lsr v s2
  let s1 := log2Shift v 0x3#32 1
  let v := lsr v s1
  (((q ||| s3) ||| s2) ||| s1) ||| (v >>> 1)

/-- R47: the priority chain of signed comparisons. -/
def log10Path (a : Word) : Word :=
  if 1000000000 ≤ a.toInt then 9
  else if 100000000 ≤ a.toInt then 8
  else if 10000000 ≤ a.toInt then 7
  else if 1000000 ≤ a.toInt then 6
  else if 100000 ≤ a.toInt then 5
  else if 10000 ≤ a.toInt then 4
  else if 1000 ≤ a.toInt then 3
  else if 100 ≤ a.toInt then 2
  else if 10 ≤ a.toInt then 1
  else 0

/-- One step of R48's reduction: neighbouring fields of `k` bits added. -/
def swarStep (k : Nat) (mask v : Word) : Word := (v &&& mask) + ((v >>> k) &&& mask)

/-- R48: pairs, nibbles, bytes, halfwords, word. -/
def popcntPath (a : Word) : Word :=
  swarStep 16 0x0000FFFF#32 (swarStep 8 0x00FF00FF#32 (swarStep 4 0x0F0F0F0F#32
    (swarStep 2 0x33333333#32 (swarStep 1 0x55555555#32 a))))

/-- One test of R49: `k` if `v` meets the mask, else 0. -/
def ctzTest (v mask : Word) (k : Nat) : Nat := if v &&& mask ≠ 0 then k else 0

/-- R49: the lowest set bit isolated, then six independent tests, their decrements summed and taken from 32. -/
def ctzPath (a : Word) : Word :=
  let v := a &&& -a
  BitVec.ofNat 32 (32 - (ctzTest v 0xFFFFFFFF#32 1 + ctzTest v 0x0000FFFF#32 16 + ctzTest v 0x00FF00FF#32 8 +
    ctzTest v 0x0F0F0F0F#32 4 + ctzTest v 0x33333333#32 2 + ctzTest v 0x55555555#32 1))

/-- R51: the cascade, then the top bit isolated; every shift logical (D9). -/
def prevpow2Path (a : Word) : Word := fill a - (fill a >>> 1)

/-- R52: the sixteen parities of a nibble, bit `n` that of the number `n`. -/
def parityTable : BitVec 16 := 0x6996#16

/-- R52: the word folded to a nibble, which indexes the constant. -/
def parityPath (a : Word) : Word :=
  let v := a ^^^ (a >>> 16)
  let v := v ^^^ (v >>> 8)
  let v := v ^^^ (v >>> 4)
  boolWord (parityTable.getLsbD (v.extractLsb' 0 4).toNat)

/-- One step of spreading: `x | lsl(x, k)`, masked. -/
def spreadStep (k : Nat) (mask x : Word) : Word := (x ||| (x <<< k)) &&& mask

/-- One step of compaction: `x | lsr(x, k)`, masked. -/
def compactStep (k : Nat) (mask x : Word) : Word := (x ||| (x >>> k)) &&& mask

/-- `spread2` of R54: bit `i` of the low half goes to bit `2i`. -/
def spread2 (x : Word) : Word :=
  spreadStep 1 0x55555555#32 (spreadStep 2 0x33333333#32 (spreadStep 4 0x0F0F0F0F#32
    (spreadStep 8 0x00FF00FF#32 (x &&& 0x0000FFFF#32))))

/-- R54. -/
def ilv2Path (a b : Word) : Word := spread2 a ||| (spread2 b <<< 1)

/-- R55: the mirror cascade. -/
def dilv2Path (a b : Word) : Word :=
  compactStep 8 0x0000FFFF#32 (compactStep 4 0x00FF00FF#32 (compactStep 2 0x0F0F0F0F#32
    (compactStep 1 0x33333333#32 (lsr a b &&& 0x55555555#32))))

/-- `spread3` of R56: bit `i` of the low ten goes to bit `3i`. -/
def spread3 (x : Word) : Word :=
  spreadStep 2 0x49249249#32 (spreadStep 4 0xC30C30C3#32 (spreadStep 8 0x0F00F00F#32
    (spreadStep 16 0xFF0000FF#32 (x &&& 0x000003FF#32))))

/-- R56. -/
def ilv3Path (a b c : Word) : Word := (spread3 a ||| (spread3 b <<< 1)) ||| (spread3 c <<< 2)

/-- R57: the mirror cascade. -/
def dilv3Path (a b : Word) : Word :=
  compactStep 16 0x000003FF#32 (compactStep 8 0xFF0000FF#32 (compactStep 4 0x0F00F00F#32
    (compactStep 2 0xC30C30C3#32 (lsr a b &&& 0x49249249#32))))

end Sys2Proof.Machine
end

