-- ==== Sys2Proof/Safety.lean ====
section
/-! DEFINITION. Safety.lean: what counts as a good run of this block, and the words the statements use.

The block itself cannot go wrong (R60, R76). What can is the host's: presenting a reserved opcode (R35), or using a result
that it was told not to rely on (R74). -/

namespace Sys2Proof.Machine

/-- Accepting `i` gives a next state in which the one change is a request in flight with the result `v` and `LAT`
cycles to wait: the whole effect R16 gives a request, and its frame. -/
def Answers (i : Instr) (s : State) (v : Word) : Prop :=
  exec i s = .next { s with inFlight := s.inFlight ++ [{ answer := v, wait := s.lat }] }

/-- The in-flight queue as R17 has it: every request within its `LAT` cycles, and no two due in one cycle, oldest
first. Every state that a run reaches has it. -/
abbrev State.PipelineOk (s : State) : Prop :=
  s.inFlight.Pairwise (fun x y => x.wait < y.wait) ∧ ∀ e ∈ s.inFlight, e.wait < s.lat

/-- The responses of the next `n` cycles, in order: `r` in each cycle with `resp_valid` = 1 (R16, R26). -/
def responses : Nat → State → List Word
  | 0, _ => []
  | n + 1, s =>
    match step s with
    | .next t => (if t.respValid then [t.r] else []) ++ responses n t
    | .fault _ => []
    | .refused _ => []

/-- The requests that a list of input-port values presents (R16): those of the cycles with `req_valid` = 1. -/
def presented (ps : List PortIn) : List Request := (ps.filter (·.reqValid)).map (·.req)

/-- The host does not assert `rst` in these cycles (R70: a host that needs a result must not). -/
abbrev NoReset (ps : List PortIn) : Prop := ∀ p ∈ ps, p.rst = false

/-- The caller's obligation of R74 for an instruction: the operands for which its result is meaningful. None is
checked by the block. -/
def callerMeets : Instr → Bool
  | .bcompl _ => true
  | .sign _ => true
  | .abs a => a != 0x80000000#32
  | .min _ _ => true
  | .max _ _ => true
  | .ispow2 a => a != 0x80000000#32
  | .log2 a => a != 0
  | .log10 a => decide (0 ≤ a.toInt)
  | .popcnt _ => true
  | .ctz _ => true
  | .nextpow2 a => decide (0 ≤ a.toInt ∧ a.toInt ≤ 2 ^ 30)
  | .prevpow2 a => decide (0 ≤ a.toInt)
  | .parity _ => true
  | .bitrev _ => true
  | .ilv2 a b => decide (a.toNat < 2 ^ 16 ∧ b.toNat < 2 ^ 16)
  | .dilv2 _ b => decide (b.toNat ≤ 1)
  | .ilv3 a b c => decide (a.toNat < 2 ^ 10 ∧ b.toNat < 2 ^ 10 ∧ c.toNat < 2 ^ 10)
  | .dilv3 a b => decide (b.toNat ≤ 2 ∧ a.toNat < 2 ^ 30)
  | .nextcomb a => (a != 0) && (a ||| (a - 1)) != 0xFFFFFFFF#32

end Sys2Proof.Machine
end

