-- ==== Sys2Proof/Certificates/Slice0/Obligations.lean ====
section
/-! DEFINITION. Certificates/Slice0/Obligations.lean: the statements for the provers.

`Answers i s v` (Safety.lean) is the equation `exec i s = .next t`, where `t` is `s` with one request in flight added, its
result `v` and its wait `LAT`: it says that the instruction completes, what its result is, and that it changes nothing else
(R16: one response; R9, R10: nothing else). That a request in flight comes out on the response port exactly `LAT` cycles after its
own is `Obligations.ResponseAppearsAfterLatCycles`. The statements speak of every state, so of every latency (log 1), every
host (log 6) and every sequence of free values (logs 2 to 4). -/

open Sys2Proof Sys2Proof.Machine

/-! ### Encoding -/

/-- R30, R31: the packed form of every instruction fits the 101-bit vector and decodes, as a table word, to the
instruction: no bit of an encoding is dropped. (DILV2 and DILV3 carry and encode the whole of `b`: logs 13 and 14.) -/
def Obligations.EncodedInstructionDecodesBack : Prop :=
  ∀ i : Instr, encodePacked i < 2 ^ 101 ∧ decodeTableWord 104 (encodePacked i) = some i

/-- R31, R32, R37: encoding what a request decodes to gives the request back with the whole fields that its format
ignores set to 0; a well-formed request comes back as it was. For DILV2 and DILV3 that is `c` alone: R30 lists b[31:5]
as ignored too, and that the instruction and the well-formed request keep the whole of `b` is the model's choice (log
13, after the printed request whose `b` is 0x21; log 14). -/
def Obligations.DecodedRequestEncodesToItsUsedFields : Prop :=
  ∀ (q : Request) (i : Instr), decode q = .ok i →
    encode i = q.clearIgnored ∧ (q.wellFormed = true → encode i = q)

/-- R31: a decoder needs `op` alone; no other bit takes part. The nineteen opcodes below 0x13 decode, each to an
instruction of that opcode, and the others are rejected by name (R35). -/
def Obligations.DecodingNeedsTheOpcodeAlone : Prop :=
  ∀ q : Request,
    (q.op.toNat < 19 → ∃ i, decode q = .ok i ∧ (encode i).op = q.op) ∧
    (19 ≤ q.op.toNat → decode q = .error (.reservedOpcode q.op))

/-- R30, R31, R32: some request words of 95_test_vectors.md, printed there in hexadecimal, decode to what they stand
for: MIN, POPCNT with `b` and `c` ignored, DILV2 with bits 31 to 5 of `b` and all of `c` ignored, ILV3, a reserved
opcode. (DILV2 keeps the whole of `b` as its operand and its meaning narrows it: log 14.) -/
def Obligations.PrintedRequestsDecode : Prop :=
  decodeTableWord 104 0x030000000000000001FFFFFFFF = some (.min 0xFFFFFFFF 1) ∧
  decodeTableWord 104 0x0812345678DEADBEEFF0F00F0F = some (.popcnt 0xF0F00F0F) ∧
  decodeTableWord 104 0x0F55555555ABCDEF010000001B = some (.dilv2 0x1B 0xABCDEF01) ∧
  decodeTableWord 104 0x10000003FF0000000900000005 = some (.ilv3 5 9 0x3FF) ∧
  decodeTableWord 104 0x13000000000000000000000000 = none

/-- R30, R32, R33, R36: what the ignored bits of a request hold has no effect on a cycle: two requests with the same
opcode that agree on the operand bits the opcode uses make the same step from every state. For the nineteen defined
opcodes that is the rules'. That a reserved opcode uses no operand bit is the model's choice (log 2): its unspecified
`r` (R35) is a free value that hangs on a counter of the state and not on the operands. -/
def Obligations.IgnoredBitsHaveNoEffect : Prop :=
  ∀ (s : State) (q q' : Request), q.usedOnly = q'.usedOnly →
    step { s with port := { s.port with req := q } } = step { s with port := { s.port with req := q' } }

/-! ### The cycle, the pipeline and reset -/

/-- R16: in a cycle with `rst` = 0 and `req_valid` = 1 the block runs the decoded instruction: the step is `exec` of
it at that state, and then the end of the cycle. -/
def Obligations.StepRunsTheDecodedInstruction : Prop :=
  ∀ (s : State) (i : Instr), s.port.rst = false → s.port.reqValid = true → decode s.port.req = .ok i →
    ∃ t, exec i s = .next t ∧ step s = .next t.finishCycle

/-- The model's own interface (log 9): a table word placed on the input ports is the instruction that the very next
step runs, from every state. -/
def Obligations.PresentedTableWordIsRunByTheNextStep : Prop :=
  ∀ (s : State) (nbits w : Nat) (i : Instr), decodeTableWord nbits w = some i →
    ∃ t, exec i (s.withFetchWord nbits w) = .next t ∧ step (s.withFetchWord nbits w) = .next t.finishCycle

/-- R16, R17, R18: the end of a cycle puts out the oldest request's answer if its wait is over, and otherwise
`resp_valid` = 0 and a free value on `r` (log 3); the rest wait one cycle less; the host drives the next cycle (log
6). -/
def Obligations.CycleEndAnswersTheDueRequest : Prop :=
  ∀ t : State,
    (∀ v rest, t.inFlight = { answer := v, wait := 0 } :: rest →
      t.finishCycle.respValid = true ∧ t.finishCycle.r = v ∧ t.finishCycle.draws = t.draws ∧
      t.finishCycle.inFlight = rest.map fun e => { e with wait := e.wait - 1 }) ∧
    ((∀ v rest, t.inFlight ≠ { answer := v, wait := 0 } :: rest) →
      t.finishCycle.respValid = false ∧ t.finishCycle.r = Config.freeWord t.draws ∧
      t.finishCycle.draws = t.draws + 1 ∧
      t.finishCycle.inFlight = t.inFlight.map fun e => { e with wait := e.wait - 1 }) ∧
    t.finishCycle.lat = t.lat ∧ t.finishCycle.port = t.drive.headD PortIn.idle ∧
    t.finishCycle.drive = t.drive.tail

/-- The model's choice of how the host stands in the state (log 6): whatever a cycle does, the next cycle's inputs are
the first of what the host still drives, idle if there is none, and the rest is left for later cycles. -/
def Obligations.HostDrivesTheNextCycle : Prop :=
  ∀ s t : State, step s = .next t → t.port = s.drive.headD PortIn.idle ∧ t.drive = s.drive.tail

/-- R16: in a cycle with `rst` = 0 and `req_valid` = 0 nothing is accepted, and the values on the data lines are
ignored. -/
def Obligations.IdleCycleAcceptsNothing : Prop :=
  ∀ (s : State) (q : Request), s.port.rst = false → s.port.reqValid = false →
    step s = .next s.finishCycle ∧ step { s with port := { s.port with req := q } } = .next s.finishCycle

/-- R70, whole (the spec's decision D17): while `rst` = 1 the request ports are ignored, `resp_valid` = 0 and what was
in flight is dropped, and nothing else changes; after it the first response belongs to the first request accepted
after reset; with `LAT` = 0 there is never a request in flight. -/
def Obligations.ResetCycleDropsEverythingInFlight : Prop :=
  ∀ s : State, s.port.rst = true →
    (∃ t, step s = .next t ∧ t.respValid = false ∧ t.inFlight = [] ∧ t.lat = s.lat) ∧
    (∀ valid q, step { s with port := { rst := true, reqValid := valid, req := q } } = step s) ∧
    (∀ results : List Word, NoReset s.drive →
      List.Forall₂ (fun q v => ∃ i, decode q = .ok i ∧ Answers i s v) (presented s.drive) results →
      responses (1 + s.drive.length + s.lat) s = results) ∧
    (s.PipelineOk → s.lat = 0 → s.inFlight = [])

/-- R35 (the spec's decision D5), with the model's form of the unspecified `r`, a free value (log 2): a request with a
reserved opcode is answered in cycle t + LAT with `resp_valid` = 1 and a free value on `r`, drawn for this request
alone, and nothing else happens. -/
def Obligations.ReservedOpcodeIsAnsweredOnTime : Prop :=
  ∀ s : State, s.port.rst = false → s.port.reqValid = true → 19 ≤ s.port.req.op.toNat →
    step s = .next (State.finishCycle
      { s with
        inFlight := s.inFlight ++ [{ answer := Config.freeWord s.draws, wait := s.lat }]
        draws := s.draws + 1 }) ∧
    (s.PipelineOk → NoReset (s.drive.take s.lat) →
      ∃ t, Host.Core.run core (s.lat + 1) s = .next t ∧ t.respValid = true ∧ t.r = Config.freeWord s.draws)

/-- R60, R76: the block raises nothing and cannot hang: from every state, well formed or not, a cycle ends in a next
state. -/
def Obligations.EveryCycleEndsInANextState : Prop :=
  ∀ s : State, ∃ t, step s = .next t

/-- R18, R71: right after reset nothing is in flight and `resp_valid` = 0, and the pipeline has the form of R17. -/
def Obligations.ResetStateIsSilentAndEmpty : Prop :=
  State.reset.inFlight = [] ∧ State.reset.respValid = false ∧ State.reset.PipelineOk

/-- R17: every cycle keeps the pipeline's form, every request in flight within its `LAT` cycles and no two due
together, oldest first, so that at most `LAT` requests are in flight; and no cycle changes `LAT`. From every state
that has the form, reached or not. -/
def Obligations.StepKeepsThePipelineInForm : Prop :=
  ∀ s t : State, s.PipelineOk → step s = .next t →
    t.PipelineOk ∧ t.lat = s.lat ∧ t.inFlight.length ≤ t.lat

/-- R16, R75, R76: a request accepted in a cycle is answered exactly `LAT` cycles later, in the cycle of step `LAT` +
1 counted from its own, with its own result, whatever else is in flight and whatever is presented meanwhile, unless
reset intervenes (R70). -/
def Obligations.ResponseAppearsAfterLatCycles : Prop :=
  ∀ (s : State) (i : Instr) (v : Word), s.PipelineOk → s.port.rst = false → s.port.reqValid = true →
    decode s.port.req = .ok i → NoReset (s.drive.take s.lat) → Answers i s v →
      ∃ t, Host.Core.run core (s.lat + 1) s = .next t ∧ t.respValid = true ∧ t.r = v

/-- R26 (the spec's decision D19): responses leave in the order their requests entered, reserved opcodes included, and
the n-th response belongs to the n-th request: over the cycles that the host drives and `LAT` more, the responses are
the answers of the requests that were in flight and then one for every request presented, each the result of its own
request. -/
def Obligations.ResponsesFollowRequestOrder : Prop :=
  ∀ s : State, s.PipelineOk → NoReset (s.port :: s.drive) →
    (responses (1 + s.drive.length + s.lat) s).length
      = s.inFlight.length + (presented (s.port :: s.drive)).length ∧
    (∀ (k : Nat) (e : InFlight), s.inFlight[k]? = some e →
      (responses (1 + s.drive.length + s.lat) s)[k]? = some e.answer) ∧
    (∀ (k : Nat) (q : Request) (i : Instr) (v : Word),
      (presented (s.port :: s.drive))[k]? = some q → decode q = .ok i → Answers i s v →
      (responses (1 + s.drive.length + s.lat) s)[s.inFlight.length + k]? = some v)

/-- R16: with `LAT` = 0 the block is combinational: `resp_valid` is `req_valid` and not `rst`, and `r` is the result
of the request of the same cycle. -/
def Obligations.ZeroLatencyIsCombinational : Prop :=
  ∀ s : State, s.lat = 0 → s.inFlight = [] →
    ∃ t, step s = .next t ∧ t.respValid = (s.port.reqValid && !s.port.rst) ∧ t.inFlight = [] ∧
      (∀ i v, s.port.reqValid = true → s.port.rst = false → decode s.port.req = .ok i → Answers i s v → t.r = v)

/-- R9, R10: every instruction completes from every state, and its result is the same from every state: it depends on
the opcode and on the operands that it uses, not on earlier requests, time or anything else. -/
def Obligations.ResultsDoNotDependOnTheState : Prop :=
  ∀ q : Request, q.op.toNat < 19 → ∃ i v, decode q = .ok i ∧ ∀ s, Answers i s v

/-- R73: a host that waits for a response before it names the result issues no earlier than `LAT` cycles after the
request, one more if it registers the response, and never in the same cycle. -/
def Obligations.DependentRequestWaitsForItsResponse : Prop :=
  ∀ (lat t : Nat) (registers : Bool),
    t + lat ≤ earliestDependentIssue lat t registers ∧ t < earliestDependentIssue lat t registers ∧
    (lat = 0 → earliestDependentIssue lat t registers = t + 1) ∧
    (0 < lat → earliestDependentIssue lat t false = t + lat ∧ earliestDependentIssue lat t true = t + lat + 1)

/-- R15, R21: the ROM has 256 entries, and entry `i` is the byte `i` with its bits reversed. -/
def Obligations.RomEntriesAreReversedIndices : Prop :=
  rev8Rom.length = 256 ∧ (∀ (i : Byte), ∀ j < 8, (rev8 i).getLsbD j = i.getLsbD (7 - j)) ∧
  ∀ i : Byte, rev8 (rev8 i) = i

/-! ### What each opcode answers: the definitions of R40 to R58

Each statement says, for every value of all three operand fields, that the opcode decodes to its instruction (the fields that
the format ignores left out), that the instruction completes from every state with a result `v` and no other effect, and what
`v` is, by the rule's definition. -/

/-- R40, the definition: `r[i] = 1 − a[i]` for every bit; twice gives `a` back. -/
def Obligations.BcomplInvertsEveryBit : Prop :=
  ∀ (a b c : Word) (s : State), decode { op := 0x00, a := a, b := b, c := c } = .ok (.bcompl a) ∧
    ∃ v, Answers (.bcompl a) s v ∧ (∀ i < 32, v.getLsbD i = !a.getLsbD i) ∧ Answers (.bcompl v) s a

/-- R41, the definition: 1 if s(a) > 0, −1 as a word if s(a) < 0, 0 if a = 0. -/
def Obligations.SignGivesTheSign : Prop :=
  ∀ (a b c : Word) (s : State), decode { op := 0x01, a := a, b := b, c := c } = .ok (.sign a) ∧
    ∃ v, Answers (.sign a) s v ∧ (0 < a.toInt → v = 0x00000001) ∧ (a.toInt < 0 → v = 0xFFFFFFFF) ∧ (a = 0 → v = 0)

/-- R42, the definition: `a`, or neg32(a) when bit 31 is set; for every `a` but INT_MIN the signed value of `v` is the
absolute value, and INT_MIN wraps to itself (the spec's decision D12). -/
def Obligations.AbsGivesTheAbsoluteValue : Prop :=
  ∀ (a b c : Word) (s : State), decode { op := 0x02, a := a, b := b, c := c } = .ok (.abs a) ∧
    ∃ v, Answers (.abs a) s v ∧ (a.getLsbD 31 = false → v = a) ∧ (a.getLsbD 31 = true → v = 0 - a) ∧
      (a ≠ 0x80000000 → v.toInt = |a.toInt|) ∧ (a = 0x80000000 → v = 0x80000000)

/-- R43, the definition: `a` if s(a) < s(b), else `b`, by the true signed order. -/
def Obligations.MinGivesTheSignedMinimum : Prop :=
  ∀ (a b c : Word) (s : State), decode { op := 0x03, a := a, b := b, c := c } = .ok (.min a b) ∧
    ∃ v, Answers (.min a b) s v ∧ (a.toInt < b.toInt → v = a) ∧ (b.toInt ≤ a.toInt → v = b) ∧
      Answers (.min b a) s v

/-- R44, the definition: `b` if s(a) < s(b), else `a`; with MIN it gives back the two operands, and the two are equal
exactly when the operands are. -/
def Obligations.MaxGivesTheSignedMaximum : Prop :=
  ∀ (a b c : Word) (s : State), decode { op := 0x04, a := a, b := b, c := c } = .ok (.max a b) ∧
    ∃ v w, Answers (.max a b) s v ∧ Answers (.min a b) s w ∧ (a.toInt < b.toInt → v = b) ∧
      (b.toInt ≤ a.toInt → v = a) ∧ ((w = a ∧ v = b) ∨ (w = b ∧ v = a)) ∧ (w = v ↔ a = b)

/-- R45, the definition: the printed formula, with `a − 1` wrapping; so 0 gives 0 and INT_MIN gives 1 (the spec's
decision D25). -/
def Obligations.Ispow2FollowsThePrintedFormula : Prop :=
  ∀ (a b c : Word) (s : State), decode { op := 0x05, a := a, b := b, c := c } = .ok (.ispow2 a) ∧
    ∃ v, Answers (.ispow2 a) s v ∧ (a ≠ 0 ∧ a &&& (a - 1) = 0 → v = 1) ∧ (a = 0 ∨ a &&& (a - 1) ≠ 0 → v = 0) ∧
      (a = 0x80000000 → v = 1)

/-- R46, the definition: the unique `k` in 0 to 31 with 2^k ≤ u(a) < 2^(k+1), and 0 for the word 0 (the spec's
decision D11). -/
def Obligations.Log2GivesTheFloorLogarithm : Prop :=
  ∀ (a b c : Word) (s : State), decode { op := 0x06, a := a, b := b, c := c } = .ok (.log2 a) ∧
    ∃ v, Answers (.log2 a) s v ∧ (a = 0 → v = 0) ∧
      (a ≠ 0 → v.toNat < 32 ∧ 2 ^ v.toNat ≤ a.toNat ∧ a.toNat < 2 ^ (v.toNat + 1))

/-- R47, the definition: a value 0 to 9, the number of `k` in 1 to 9 with s(a) ≥ 10^k; for s(a) ≥ 1 the floor of the
decimal logarithm, and 0 for every other word (negative words by the spec's decision D10). -/
def Obligations.Log10CountsTheThresholdsReached : Prop :=
  ∀ (a b c : Word) (s : State), decode { op := 0x07, a := a, b := b, c := c } = .ok (.log10 a) ∧
    ∃ v, Answers (.log10 a) s v ∧ v.toNat ≤ 9 ∧
      (∀ k, 1 ≤ k → k ≤ 9 → (k ≤ v.toNat ↔ (10 : Int) ^ k ≤ a.toInt)) ∧
      (1 ≤ a.toInt → v.toNat = Nat.log 10 a.toNat) ∧ (a.toInt < 1 → v = 0)

/-- R48, the definition: the number of set bits of `a`. -/
def Obligations.PopcntCountsTheSetBits : Prop :=
  ∀ (a b c : Word) (s : State), decode { op := 0x08, a := a, b := b, c := c } = .ok (.popcnt a) ∧
    ∃ v, Answers (.popcnt a) s v ∧ v.toNat = (Finset.univ.filter fun i : Fin 32 => a.getLsbD i = true).card ∧
      ∃ w, Answers (.popcnt (~~~a)) s w ∧ w.toNat = 32 - v.toNat

/-- R49, the definition: the unique `k` in 0 to 31 with a[k] = 1 and every lower bit 0, and the sentinel 32 for the
word 0. -/
def Obligations.CtzFindsTheLowestSetBit : Prop :=
  ∀ (a b c : Word) (s : State), decode { op := 0x09, a := a, b := b, c := c } = .ok (.ctz a) ∧
    ∃ v, Answers (.ctz a) s v ∧ (a = 0 → v = 32) ∧
      (a ≠ 0 → v.toNat < 32 ∧ a.getLsbD v.toNat = true ∧ ∀ j < v.toNat, a.getLsbD j = false)

/-- R50: 1 for the word 0; the smallest power of two not below s(a) for 1 ≤ s(a) ≤ 2^30; and the wrapped values of the
rule's table for every other word (with the decrement of the spec's decision D23). -/
def Obligations.Nextpow2RoundsUp : Prop :=
  ∀ (a b c : Word) (s : State), decode { op := 0x0A, a := a, b := b, c := c } = .ok (.nextpow2 a) ∧
    ∃ v, Answers (.nextpow2 a) s v ∧ v = fill ((if a = 0 then 1 else a) - 1) + 1 ∧ (a = 0 → v = 1) ∧
      (1 ≤ a.toNat → a.toNat ≤ 2 ^ 30 →
        ∃ k, k ≤ 30 ∧ v.toNat = 2 ^ k ∧ a.toNat ≤ 2 ^ k ∧ ∀ j, a.toNat ≤ 2 ^ j → k ≤ j) ∧
      (2 ^ 30 < a.toNat → a.toNat ≤ 2 ^ 31 → v = 0x80000000) ∧ (2 ^ 31 < a.toNat → v = 0)

/-- R51, the definition: the highest set bit alone, the largest power of two not above u(a); 0 for the word 0. Every
negative word gives INT_MIN (the spec's decision D9). -/
def Obligations.Prevpow2KeepsTheHighestSetBit : Prop :=
  ∀ (a b c : Word) (s : State), decode { op := 0x0B, a := a, b := b, c := c } = .ok (.prevpow2 a) ∧
    ∃ v, Answers (.prevpow2 a) s v ∧ (a = 0 → v = 0) ∧
      (a ≠ 0 → ∃ k, k < 32 ∧ v.toNat = 2 ^ k ∧ 2 ^ k ≤ a.toNat ∧ a.toNat < 2 ^ (k + 1)) ∧
      (a.toInt < 0 → v = 0x80000000)

/-- R52, the definition: 1 when `a` has an odd number of set bits, else 0; complementing `a` does not change it and
flipping any one bit flips it. -/
def Obligations.ParityIsTheCountModuloTwo : Prop :=
  ∀ (a b c : Word) (s : State), decode { op := 0x0C, a := a, b := b, c := c } = .ok (.parity a) ∧
    ∃ v, Answers (.parity a) s v ∧
      v.toNat = (Finset.univ.filter fun i : Fin 32 => a.getLsbD i = true).card % 2 ∧
      Answers (.parity (~~~a)) s v ∧ ∀ k < 32, Answers (.parity (a ^^^ (1#32 <<< k))) s (1 - v)

/-- R53, the definition: r[i] = a[31 − i]; and R53's bytes: byte 3 − k of the result is the ROM entry of byte k of
`a`. Twice gives `a` back. -/
def Obligations.BitrevReversesTheBits : Prop :=
  ∀ (a b c : Word) (s : State), decode { op := 0x0D, a := a, b := b, c := c } = .ok (.bitrev a) ∧
    ∃ v, Answers (.bitrev a) s v ∧ (∀ i < 32, v.getLsbD i = a.getLsbD (31 - i)) ∧
      (∀ k < 4, byteOf v (3 - k) = rev8 (byteOf a k)) ∧ Answers (.bitrev v) s a

/-- R54, the definition: r[2i] = a[i] and r[2i+1] = b[i] for i = 0 to 15; the upper halves of `a` and `b` have no
effect. -/
def Obligations.Ilv2InterleavesTwoCoordinates : Prop :=
  ∀ (a b c : Word) (s : State), decode { op := 0x0E, a := a, b := b, c := c } = .ok (.ilv2 a b) ∧
    ∃ v, Answers (.ilv2 a b) s v ∧ (∀ i < 16, v.getLsbD (2 * i) = a.getLsbD i ∧ v.getLsbD (2 * i + 1) = b.getLsbD i) ∧
      Answers (.ilv2 (a &&& 0xFFFF) (b &&& 0xFFFF)) s v

/-- R55, the definition: bit i of the result, i = 0 to 15, is bit 2i of the code shifted right by b modulo 32, zeros
entering at the top; the upper half of the result is 0; `b` counts modulo 32 (the spec's decisions D13, D15). -/
def Obligations.Dilv2ExtractsEverySecondBit : Prop :=
  ∀ (a b c : Word) (s : State), decode { op := 0x0F, a := a, b := b, c := c } = .ok (.dilv2 a b) ∧
    ∃ v, Answers (.dilv2 a b) s v ∧
      (∀ i < 16, v.getLsbD i = (decide (2 * i + b.toNat % 32 < 32) && a.getLsbD (2 * i + b.toNat % 32))) ∧
      v.toNat < 2 ^ 16 ∧ Answers (.dilv2 a (b + 32)) s v

/-- R56, the definition: r[3i] = a[i], r[3i+1] = b[i], r[3i+2] = c[i] for i = 0 to 9, and bits 31 and 30 are 0; bits
10 and up of the operands have no effect (the spec's decision D14). -/
def Obligations.Ilv3InterleavesThreeCoordinates : Prop :=
  ∀ (a b c : Word) (s : State), decode { op := 0x10, a := a, b := b, c := c } = .ok (.ilv3 a b c) ∧
    ∃ v, Answers (.ilv3 a b c) s v ∧
      (∀ i < 10, v.getLsbD (3 * i) = a.getLsbD i ∧ v.getLsbD (3 * i + 1) = b.getLsbD i ∧
        v.getLsbD (3 * i + 2) = c.getLsbD i) ∧
      v.toNat < 2 ^ 30 ∧ Answers (.ilv3 (a &&& 0x3FF) (b &&& 0x3FF) (c &&& 0x3FF)) s v

/-- R57, the definition: bit i of the result, i = 0 to 9, is bit 3i of the code shifted right by b modulo 32, zeros
entering at the top; bits 10 and up of the result are 0; `b` counts modulo 32 (the spec's decisions D13, D15). -/
def Obligations.Dilv3ExtractsEveryThirdBit : Prop :=
  ∀ (a b c : Word) (s : State), decode { op := 0x11, a := a, b := b, c := c } = .ok (.dilv3 a b) ∧
    ∃ v, Answers (.dilv3 a b) s v ∧
      (∀ i < 10, v.getLsbD i = (decide (3 * i + b.toNat % 32 < 32) && a.getLsbD (3 * i + b.toNat % 32))) ∧
      v.toNat < 2 ^ 10 ∧ Answers (.dilv3 a (b + 32)) s v

/-- R58, the definition: with `t` = a | (a − 1), `n` = not32(t), `g` = (n & −n) − 1 and `z` the trailing-zero count of
`a` (32 for 0), the result is (t + 1) | (g >> ((z + 1) mod 32)): every step wraps and the shift amount counts modulo
32 (the spec's decisions D8, D26). -/
def Obligations.NextcombFollowsThePrintedFormula : Prop :=
  ∀ (a b c : Word) (s : State), decode { op := 0x12, a := a, b := b, c := c } = .ok (.nextcomb a) ∧
    ∃ (v t n g : Word) (z : Nat), Answers (.nextcomb a) s v ∧ t = a ||| (a - 1) ∧ n = ~~~t ∧ g = (n &&& -n) - 1 ∧
      ((a = 0 ∧ z = 32) ∨ (z < 32 ∧ a.getLsbD z = true ∧ ∀ j < z, a.getLsbD j = false)) ∧
      v = (t + 1) ||| (g >>> ((z + 1) % 32)) ∧
      (a = 0 → v = 0x7FFFFFFF) ∧ (a = 0x80000000 → v = 0xFFFFFFFF)

/-! ### The reference datapaths, and consequences of the definitions

These rest on passages that the spec marks as derived: the constants of the cascades, and the facts that the spec's writer checked by
program. The spec's sentence is that each datapath computes its definition on every input (00_scope.md section 6). -/

/-- The formulas of 40_select.md compute BCOMPL, SIGN (both forms), ABS (both readings), MIN and MAX. -/
def Obligations.SelectDatapathsComputeTheirDefinitions : Prop :=
  ∀ (a b : Word) (s : State),
    Answers (.bcompl a) s (bcomplPath a) ∧ Answers (.sign a) s (signPath a) ∧
    Answers (.sign a) s (asr a 31 ||| boolWord (a != 0 && !a.getLsbD 31)) ∧
    Answers (.abs a) s (absPath a) ∧ Answers (.abs a) s ((a + asr a 31) ^^^ asr a 31) ∧
    Answers (.min a b) s (minPath a b) ∧ Answers (.max a b) s (maxPath a b)

/-- ISPOW2 answers 1 for exactly the thirty-two words that have a single bit set, and 0 for every other word (derived
in 41_pow2_log.md, R45). -/
def Obligations.Ispow2HoldsForSingleBitWordsOnly : Prop :=
  ∀ (a : Word) (s : State), (Answers (.ispow2 a) s 1 ↔ ∃ k < 32, a = 1#32 <<< k) ∧
    (Answers (.ispow2 a) s 0 ↔ ¬ ∃ k < 32, a = 1#32 <<< k)

/-- The binary-search cascade of 41_pow2_log.md computes LOG2. -/
def Obligations.Log2CascadeComputesLog2 : Prop := ∀ (a : Word) (s : State), Answers (.log2 a) s (log2Path a)

/-- The priority chain of 41_pow2_log.md computes LOG10. -/
def Obligations.Log10ChainComputesLog10 : Prop := ∀ (a : Word) (s : State), Answers (.log10 a) s (log10Path a)

/-- The SWAR reduction of 42_count.md computes POPCNT: no field overflows into its neighbour. -/
def Obligations.SwarReductionComputesPopcnt : Prop :=
  ∀ (a : Word) (s : State), Answers (.popcnt a) s (popcntPath a)

/-- The binary-search halving of 42_count.md computes CTZ, the sentinel 32 included. -/
def Obligations.MaskTestsComputeCtz : Prop := ∀ (a : Word) (s : State), Answers (.ctz a) s (ctzPath a)

/-- The OR-shift cascade of 43_pow2_round.md sets every bit below the highest set bit, and the top-bit isolation built
on it computes PREVPOW2. -/
def Obligations.FillCascadeComputesPrevpow2 : Prop :=
  (∀ (a : Word) (k : Nat), k < 32 → 2 ^ k ≤ a.toNat → a.toNat < 2 ^ (k + 1) → (fill a).toNat = 2 ^ (k + 1) - 1) ∧
  fill 0 = 0 ∧ ∀ (a : Word) (s : State), Answers (.prevpow2 a) s (prevpow2Path a)

/-- The fold to a nibble and the constant 0x6996 of 44_parity_reverse.md compute PARITY. -/
def Obligations.NibbleFoldComputesParity : Prop :=
  ∀ (a : Word) (s : State), Answers (.parity a) s (parityPath a)

/-- The spreading and compacting cascades of 45_morton.md compute ILV2 and DILV2. -/
def Obligations.MortonCascadesComputeIlv2AndDilv2 : Prop :=
  ∀ (a b : Word) (s : State), Answers (.ilv2 a b) s (ilv2Path a b) ∧ Answers (.dilv2 a b) s (dilv2Path a b)

/-- The spreading and compacting cascades of 45_morton.md compute ILV3 and DILV3. -/
def Obligations.MortonCascadesComputeIlv3AndDilv3 : Prop :=
  ∀ (a b c : Word) (s : State), Answers (.ilv3 a b c) s (ilv3Path a b c) ∧ Answers (.dilv3 a b) s (dilv3Path a b)

/-- The round trips of 45_morton.md, for all operands: DILV2 gives back the low 16 bits of each coordinate of an ILV2
code, and DILV3 the low 10 bits of each coordinate of an ILV3 code. -/
def Obligations.MortonCodesRoundTrip : Prop :=
  ∀ (x y z : Word) (s : State),
    (∃ code, Answers (.ilv2 x y) s code ∧ Answers (.dilv2 code 0) s (x &&& 0xFFFF) ∧
      Answers (.dilv2 code 1) s (y &&& 0xFFFF)) ∧
    ∃ code, Answers (.ilv3 x y z) s code ∧ Answers (.dilv3 code 0) s (x &&& 0x3FF) ∧
      Answers (.dilv3 code 1) s (y &&& 0x3FF) ∧ Answers (.dilv3 code 2) s (z &&& 0x3FF)

/-- CTZ of BITREV is the number of leading zeros (derived in 44_parity_reverse.md, R53): 32 for 0, and otherwise 31
less LOG2. -/
def Obligations.CtzOfBitrevCountsLeadingZeros : Prop :=
  ∀ (a : Word) (s : State), ∃ w z k, Answers (.bitrev a) s w ∧ Answers (.ctz w) s z ∧ Answers (.log2 a) s k ∧
    (a = 0 → z = 32) ∧ (a ≠ 0 → z.toNat + k.toNat = 31)

/-- NEXTCOMB of a word that meets the caller's obligation (it is not 0 and its set bits are not all contiguous at the
top, R74) is the smallest word above it with as many set bits (derived in 46_nextcomb.md, R58; the spec checked it for
1 to 4095). -/
def Obligations.NextcombIsTheLeastGreaterWordOfEqualCount : Prop :=
  ∀ (a : Word) (s : State), callerMeets (.nextcomb a) = true →
    ∃ v, Answers (.nextcomb a) s v ∧ a.toNat < v.toNat ∧ popc v = popc a ∧
      ∀ w : Word, a.toNat < w.toNat → popc w = popc a → v.toNat ≤ w.toNat

/-- R66, R74: an operand that breaks the caller's obligation is answered, never refused, and as the If-broken column
of R74's table says, row by row. ILV2 and ILV3 drop the upper bits: they answer as for the operands cut to their
range, which meet the obligation. DILV2 and DILV3 take b[4:0], `b` modulo 32, as the bit offset, and bits 31 and 30 of
`a` never reach a coordinate of DILV3 for `b` = 0, 1, 2. NEXTCOMB answers the formula's value, `z` being what CTZ
answers. The values are the spec's decisions D8 to D15, D23, D25 and D26. -/
def Obligations.BrokenObligationsAreAnsweredAsTabled : Prop :=
  (∀ (i : Instr) (s : State), callerMeets i = false → ∃ v, Answers i s v) ∧
  (∀ a s, callerMeets (.abs a) = false → Answers (.abs a) s 0x80000000) ∧
  (∀ a s, callerMeets (.ispow2 a) = false → Answers (.ispow2 a) s 1) ∧
  (∀ a s, callerMeets (.log2 a) = false → Answers (.log2 a) s 0) ∧
  (∀ a s, callerMeets (.log10 a) = false → Answers (.log10 a) s 0) ∧
  (∀ a s, callerMeets (.nextpow2 a) = false → Answers (.nextpow2 a) s 0x80000000 ∨ Answers (.nextpow2 a) s 0) ∧
  (∀ a s, callerMeets (.prevpow2 a) = false → Answers (.prevpow2 a) s 0x80000000) ∧
  (∀ a b s, callerMeets (.ilv2 a b) = false →
    callerMeets (.ilv2 (a &&& 0xFFFF) (b &&& 0xFFFF)) = true ∧
    ∃ v, Answers (.ilv2 a b) s v ∧ Answers (.ilv2 (a &&& 0xFFFF) (b &&& 0xFFFF)) s v) ∧
  (∀ a b c s, callerMeets (.ilv3 a b c) = false →
    callerMeets (.ilv3 (a &&& 0x3FF) (b &&& 0x3FF) (c &&& 0x3FF)) = true ∧
    ∃ v, Answers (.ilv3 a b c) s v ∧ Answers (.ilv3 (a &&& 0x3FF) (b &&& 0x3FF) (c &&& 0x3FF)) s v) ∧
  (∀ a b s, callerMeets (.dilv2 a b) = false →
    ∃ v, Answers (.dilv2 a b) s v ∧ v.toNat < 2 ^ 16 ∧
      ∀ i < 16, v.getLsbD i = (decide (2 * i + b.toNat % 32 < 32) && a.getLsbD (2 * i + b.toNat % 32))) ∧
  (∀ a b s, callerMeets (.dilv3 a b) = false →
    ∃ v, Answers (.dilv3 a b) s v ∧ v.toNat < 2 ^ 10 ∧
      (∀ i < 10, v.getLsbD i = (decide (3 * i + b.toNat % 32 < 32) && a.getLsbD (3 * i + b.toNat % 32))) ∧
      (b.toNat ≤ 2 → Answers (.dilv3 (a &&& 0x3FFFFFFF) b) s v)) ∧
  (∀ a s, callerMeets (.nextcomb a) = false →
    ∃ z t n g : Word, Answers (.ctz a) s z ∧ t = a ||| (a - 1) ∧ n = ~~~t ∧ g = (n &&& -n) - 1 ∧
      Answers (.nextcomb a) s ((t + 1) ||| (g >>> ((z.toNat + 1) % 32))))

/-! ### The assembler and request streams -/

/-- R37: a line that assembles has as many operands as its format has fields, and what the assembler makes of it has
the line's opcode, its operands in the order `a`, `b`, `c`, each `$k` replaced by the result of line `k`, and the
other fields 0; it is a well-formed request. That a selector operand of DILV2 or DILV3 fills the whole of `b`, though
R30 lists b[31:5] as ignored, and that such a request is well formed, is the model's choice (log 13). A line with the
right number of operands, each `$k` of which has its result, assembles; one with another number does not (R37). That
such a line answers `.operandCount`, also where a `$k` of it has no result, is the model's choice (log 13: the names
of the errors, and the number reported before a missing `$k`). -/
def Obligations.AssembledLineIsAWellFormedRequest : Prop :=
  (∀ (results : List Word) (line : Line) (q : Request), assemble results line = .ok q →
    q.wellFormed = true ∧ q.op = line.op ∧
    (∃ f, line.op.format = some f ∧ line.operands.length = f.arity) ∧
    (∀ (k : Nat) (o : Operand), line.operands[k]? = some o → ∃ w, [q.a, q.b, q.c][k]? = some w ∧
      (o = .word w ∨ ∃ j, o = .resultOf j ∧ results[j]? = some w))) ∧
  ∀ (results : List Word) (line : Line) (f : Format), line.op.format = some f →
    (line.operands.length = f.arity → (∀ j, .resultOf j ∈ line.operands → j < results.length) →
      ∃ q, assemble results line = .ok q) ∧
    (line.operands.length ≠ f.arity → assemble results line = .error .operandCount)

/-- R26, R37, R73, with lines assembled as log 13 has them where R37 is open: the results that the host computes for a
stream of lines, line by line, are the responses of the block, whatever its latency, when its requests are presented
in that order with any idle cycles between them and no reset. -/
def Obligations.BlockAnswersAStreamWithItsResults : Prop :=
  ∀ (lines : List Line) (results : List Word), streamResults [] lines = .ok results →
    results.length = lines.length ∧
    ∃ qs : List Request, qs.length = lines.length ∧
      (∀ (k : Nat) (line : Line), lines[k]? = some line → ∃ q, qs[k]? = some q ∧ assemble (results.take k) line = .ok q) ∧
      ∀ s : State, s.inFlight = [] → NoReset (s.port :: s.drive) → presented (s.port :: s.drive) = qs →
        responses (1 + s.drive.length + s.lat) s = results
end

