-- ==== Sys2Proof/Laws/Bits.lean ====
section
/-! SUPPORT. Laws/Bits.lean: what the bit operations of Machine/Operands.lean do, bit by bit. -/

namespace Sys2Proof.Machine

theorem packBits_lt (n : Nat) (f : Nat → Bool) : packBits n f < 2 ^ n := by
  induction n with
  | zero => simp [packBits]
  | succ n ih =>
    cases h : f n <;> simp [packBits, h, Nat.pow_succ] <;> omega

theorem packBits_testBit (n : Nat) (f : Nat → Bool) (i : Nat) :
    (packBits n f).testBit i = (decide (i < n) && f i) := by
  induction n with
  | zero => simp [packBits]
  | succ n ih =>
    have h : packBits (n + 1) f = 2 ^ n * (f n).toNat + packBits n f := by
      simp only [packBits, Nat.mul_comm (2 ^ n)]; omega
    rw [h, Nat.testBit_two_pow_mul_add _ (packBits_lt n f), ih]
    rcases Nat.lt_trichotomy i n with hi | hi | hi
    · simp [hi, Nat.lt_succ_of_lt hi]
    · subst hi; cases hf : f i <;> simp
    · obtain ⟨k, hk⟩ : ∃ k, i - n = k + 1 := ⟨i - n - 1, by omega⟩
      cases hf : f n <;>
        simp [show ¬ i < n by omega, show ¬ i < n + 1 by omega, hk, Nat.testBit_succ]

/-- Bit `i` of a word built from bits. -/
@[simp] theorem getLsbD_ofBits (f : Nat → Bool) (i : Nat) :
    (ofBits f).getLsbD i = (decide (i < 32) && f i) := by
  rw [ofBits, BitVec.getLsbD_ofNat, packBits_testBit]
  cases decide (i < 32) <;> rfl

theorem shiftAmount_lt (n : Word) : shiftAmount n < 32 := Nat.mod_lt _ (by decide)

@[simp] theorem getLsbD_lsr (v n : Word) (i : Nat) : (lsr v n).getLsbD i = v.getLsbD (shiftAmount n + i) := by
  simp [lsr]

@[simp] theorem getLsbD_lsl (v n : Word) (i : Nat) :
    (lsl v n).getLsbD i = (decide (i < 32) && (!decide (i < shiftAmount n) && v.getLsbD (i - shiftAmount n))) := by
  simp [lsl, Bool.and_assoc]

@[simp] theorem getLsbD_byteOf (v : Word) (k j : Nat) :
    (byteOf v k).getLsbD j = (decide (j < 8) && v.getLsbD (8 * k + j)) := by
  simp [byteOf]

/-- The lowest set bit, said once. -/
theorem lowestSet_eq_some {v : Word} {k : Nat} :
    lowestSet v = some k ↔ k < 32 ∧ v.getLsbD k = true ∧ ∀ j < k, v.getLsbD j = false := by
  simp only [lowestSet, List.find?_range_eq_some, List.mem_range, Bool.not_eq_eq_eq_not, Bool.not_true]
  tauto

theorem lowestSet_eq_none {v : Word} : lowestSet v = none ↔ v = 0 := by
  simp only [lowestSet, List.find?_eq_none, List.mem_range]
  constructor
  · intro h
    apply BitVec.eq_of_getLsbD_eq
    intro i hi
    simpa using h i hi
  · rintro rfl i _
    simp

theorem find?_reverse_range (p : Nat → Bool) (n k : Nat) :
    (List.range n).reverse.find? p = some k ↔ k < n ∧ p k = true ∧ ∀ j, k < j → j < n → p j = false := by
  induction n with
  | zero => simp
  | succ n ih =>
    rw [List.range_succ, List.reverse_append, List.reverse_singleton, List.singleton_append, List.find?_cons]
    cases hp : p n with
    | true =>
      simp only [Option.some.injEq]
      constructor
      · rintro rfl
        exact ⟨by omega, hp, fun j h1 h2 => by omega⟩
      · rintro ⟨hk, _, hj⟩
        rcases Nat.lt_or_ge k n with h | h
        · exact absurd (hj n h (by omega)) (by simp [hp])
        · omega
    | false =>
      simp only [ih]
      constructor
      · rintro ⟨hk, hpk, hj⟩
        refine ⟨by omega, hpk, fun j h1 h2 => ?_⟩
        rcases Nat.lt_or_ge j n with h | h
        · exact hj j h1 h
        · rwa [show j = n by omega]
      · rintro ⟨hk, hpk, hj⟩
        have : k ≠ n := fun h => by simp [h, hp] at hpk
        exact ⟨by omega, hpk, fun j h1 h2 => hj j h1 (by omega)⟩

/-- The highest set bit, said once. -/
theorem highestSet_eq_some {v : Word} {k : Nat} :
    highestSet v = some k ↔ k < 32 ∧ v.getLsbD k = true ∧ ∀ j, k < j → j < 32 → v.getLsbD j = false :=
  find?_reverse_range _ 32 k

theorem highestSet_eq_none {v : Word} : highestSet v = none ↔ v = 0 := by
  simp only [highestSet, List.find?_eq_none, List.mem_reverse, List.mem_range]
  constructor
  · intro h
    apply BitVec.eq_of_getLsbD_eq
    intro i hi
    simpa using h i hi
  · rintro rfl i _
    simp

end Sys2Proof.Machine
end

