-- ==== Sys2Proof/Laws/Datapath.lean ====
section
/-! SUPPORT. Laws/Datapath.lean: each step of the cascades of Machine/Datapath.lean, bit by bit. -/

namespace Sys2Proof.Machine

theorem getLsbD_spreadStep (k : Nat) (mask x : Word) (i : Nat) :
    (spreadStep k mask x).getLsbD i =
      ((x.getLsbD i || (decide (i < 32) && (!decide (i < k) && x.getLsbD (i - k)))) && mask.getLsbD i) := by
  simp only [spreadStep, BitVec.getLsbD_and, BitVec.getLsbD_or, BitVec.getLsbD_shiftLeft, Bool.and_assoc]

theorem getLsbD_compactStep (k : Nat) (mask x : Word) (i : Nat) :
    (compactStep k mask x).getLsbD i = ((x.getLsbD i || x.getLsbD (k + i)) && mask.getLsbD i) := by
  simp only [compactStep, BitVec.getLsbD_and, BitVec.getLsbD_or, BitVec.getLsbD_ushiftRight]

theorem getLsbD_fillStep (k : Nat) (v : Word) (i : Nat) :
    (fillStep k v).getLsbD i = (v.getLsbD i || v.getLsbD (k + i)) := by
  simp only [fillStep, BitVec.getLsbD_or, BitVec.getLsbD_ushiftRight]

end Sys2Proof.Machine
end

