-- ==== Sys2Proof/Laws/State.lean ====
section
/-! SUPPORT. Laws/State.lean: one lemma per field and update of the state, so that no later proof unfolds a record update. -/

namespace Sys2Proof.Machine

section Accept

variable (s : State) (v : Word)

@[simp] theorem State.accept_lat : (s.accept v).lat = s.lat := rfl
@[simp] theorem State.accept_port : (s.accept v).port = s.port := rfl
@[simp] theorem State.accept_respValid : (s.accept v).respValid = s.respValid := rfl
@[simp] theorem State.accept_r : (s.accept v).r = s.r := rfl
@[simp] theorem State.accept_inFlight :
    (s.accept v).inFlight = s.inFlight ++ [{ answer := v, wait := s.lat }] := rfl
@[simp] theorem State.accept_drive : (s.accept v).drive = s.drive := rfl
@[simp] theorem State.accept_draws : (s.accept v).draws = s.draws := rfl

end Accept

section AcceptReserved

variable (s : State)

@[simp] theorem State.acceptReserved_lat : s.acceptReserved.lat = s.lat := rfl
@[simp] theorem State.acceptReserved_port : s.acceptReserved.port = s.port := rfl
@[simp] theorem State.acceptReserved_respValid : s.acceptReserved.respValid = s.respValid := rfl
@[simp] theorem State.acceptReserved_r : s.acceptReserved.r = s.r := rfl
@[simp] theorem State.acceptReserved_inFlight :
    s.acceptReserved.inFlight = s.inFlight ++ [{ answer := Config.freeWord s.draws, wait := s.lat }] := rfl
@[simp] theorem State.acceptReserved_drive : s.acceptReserved.drive = s.drive := rfl
@[simp] theorem State.acceptReserved_draws : s.acceptReserved.draws = s.draws + 1 := rfl

end AcceptReserved

section NoResponse

variable (s : State)

@[simp] theorem State.noResponse_lat : s.noResponse.lat = s.lat := rfl
@[simp] theorem State.noResponse_port : s.noResponse.port = s.port := rfl
@[simp] theorem State.noResponse_respValid : s.noResponse.respValid = false := rfl
@[simp] theorem State.noResponse_r : s.noResponse.r = Config.freeWord s.draws := rfl
@[simp] theorem State.noResponse_inFlight : s.noResponse.inFlight = s.inFlight := rfl
@[simp] theorem State.noResponse_drive : s.noResponse.drive = s.drive := rfl
@[simp] theorem State.noResponse_draws : s.noResponse.draws = s.draws + 1 := rfl

end NoResponse

section Age

variable (s : State)

@[simp] theorem State.age_lat : s.age.lat = s.lat := rfl
@[simp] theorem State.age_port : s.age.port = s.port := rfl
@[simp] theorem State.age_respValid : s.age.respValid = s.respValid := rfl
@[simp] theorem State.age_r : s.age.r = s.r := rfl
@[simp] theorem State.age_inFlight :
    s.age.inFlight = s.inFlight.map fun e => { e with wait := e.wait - 1 } := rfl
@[simp] theorem State.age_drive : s.age.drive = s.drive := rfl
@[simp] theorem State.age_draws : s.age.draws = s.draws := rfl

end Age

section NextInputs

variable (s : State)

@[simp] theorem State.nextInputs_lat : s.nextInputs.lat = s.lat := by
  unfold State.nextInputs; split <;> rfl
@[simp] theorem State.nextInputs_respValid : s.nextInputs.respValid = s.respValid := by
  unfold State.nextInputs; split <;> rfl
@[simp] theorem State.nextInputs_r : s.nextInputs.r = s.r := by
  unfold State.nextInputs; split <;> rfl
@[simp] theorem State.nextInputs_inFlight : s.nextInputs.inFlight = s.inFlight := by
  unfold State.nextInputs; split <;> rfl
@[simp] theorem State.nextInputs_draws : s.nextInputs.draws = s.draws := by
  unfold State.nextInputs; split <;> rfl
/-- The next cycle's ports are the first of what the host still drives, or idle. -/
@[simp] theorem State.nextInputs_port : s.nextInputs.port = s.drive.headD PortIn.idle := by
  unfold State.nextInputs; split <;> simp_all
@[simp] theorem State.nextInputs_drive : s.nextInputs.drive = s.drive.tail := by
  unfold State.nextInputs; split <;> simp_all

end NextInputs

section Respond

variable (s : State)

@[simp] theorem State.respond_lat : s.respond.lat = s.lat := by
  unfold State.respond; split <;> try split
  all_goals rfl
@[simp] theorem State.respond_port : s.respond.port = s.port := by
  unfold State.respond; split <;> try split
  all_goals rfl
@[simp] theorem State.respond_drive : s.respond.drive = s.drive := by
  unfold State.respond; split <;> try split
  all_goals rfl

end Respond

section FinishCycle

variable (s : State)

@[simp] theorem State.finishCycle_lat : s.finishCycle.lat = s.lat := by simp [State.finishCycle]
@[simp] theorem State.finishCycle_port : s.finishCycle.port = s.drive.headD PortIn.idle := by
  simp [State.finishCycle]
@[simp] theorem State.finishCycle_drive : s.finishCycle.drive = s.drive.tail := by simp [State.finishCycle]
@[simp] theorem State.finishCycle_respValid : s.finishCycle.respValid = s.respond.respValid := by
  simp [State.finishCycle]
@[simp] theorem State.finishCycle_r : s.finishCycle.r = s.respond.r := by simp [State.finishCycle]
@[simp] theorem State.finishCycle_draws : s.finishCycle.draws = s.respond.draws := by
  simp [State.finishCycle]
@[simp] theorem State.finishCycle_inFlight :
    s.finishCycle.inFlight = s.respond.inFlight.map fun e => { e with wait := e.wait - 1 } := by
  simp [State.finishCycle]

end FinishCycle

section ResetCycle

variable (s : State)

@[simp] theorem State.resetCycle_lat : s.resetCycle.lat = s.lat := by simp [State.resetCycle]
@[simp] theorem State.resetCycle_port : s.resetCycle.port = s.drive.headD PortIn.idle := by
  simp [State.resetCycle]
@[simp] theorem State.resetCycle_drive : s.resetCycle.drive = s.drive.tail := by simp [State.resetCycle]
@[simp] theorem State.resetCycle_respValid : s.resetCycle.respValid = false := by simp [State.resetCycle]
@[simp] theorem State.resetCycle_r : s.resetCycle.r = Config.freeWord s.draws := by simp [State.resetCycle]
@[simp] theorem State.resetCycle_inFlight : s.resetCycle.inFlight = [] := by simp [State.resetCycle]
@[simp] theorem State.resetCycle_draws : s.resetCycle.draws = s.draws + 1 := by simp [State.resetCycle]

end ResetCycle

end Sys2Proof.Machine
end

