-- ==== Sys2Proof/Laws/Ops.lean ====
section
/-! SUPPORT. Laws/Ops.lean: for each shared operation one lemma that says once everything it can do. -/

namespace Sys2Proof.Machine

/-- The response port either carries the oldest request's answer, its wait over, or nothing. -/
theorem State.respond_cases (s : State) :
    (∃ e rest, s.inFlight = e :: rest ∧ e.wait = 0 ∧
      s.respond = { s with respValid := true, r := e.answer, inFlight := rest }) ∨
    ((∀ e rest, s.inFlight = e :: rest → e.wait ≠ 0) ∧ s.respond = s.noResponse) := by
  unfold State.respond
  split
  · exact .inr ⟨by simp_all, rfl⟩
  · next e rest h =>
    split
    · exact .inl ⟨e, rest, h, ‹_›, rfl⟩
    · refine .inr ⟨fun e' rest' h' => ?_, rfl⟩
      rw [h] at h'
      cases h'
      assumption

/-- A queue whose oldest request is due. -/
theorem State.respond_due {s : State} {v : Word} {rest : List InFlight}
    (h : s.inFlight = { answer := v, wait := 0 } :: rest) :
    s.respond = { s with respValid := true, r := v, inFlight := rest } := by
  simp [State.respond, h]

/-- A queue whose oldest request is not due. -/
theorem State.respond_waiting {s : State} {e : InFlight} {rest : List InFlight}
    (h : s.inFlight = e :: rest) (hw : e.wait ≠ 0) : s.respond = s.noResponse := by
  simp [State.respond, h, hw]

/-- An empty queue. -/
theorem State.respond_empty {s : State} (h : s.inFlight = []) : s.respond = s.noResponse := by
  simp [State.respond, h]

/-- What the block samples, said once: the four cases exclude each other. -/
theorem State.sample_cases (s : State) :
    (s.port.rst = true ∧ s.sample = .reset) ∨
    (s.port.rst = false ∧ s.port.reqValid = false ∧ s.sample = .nothing) ∨
    (∃ i, s.port.rst = false ∧ s.port.reqValid = true ∧ decode s.port.req = .ok i ∧ s.sample = .instr i) ∨
    (∃ e, s.port.rst = false ∧ s.port.reqValid = true ∧ decode s.port.req = .error e ∧ s.sample = .reserved) := by
  unfold State.sample
  cases s.port.rst <;> cases s.port.reqValid <;> cases h : decode s.port.req <;> simp

/-- Every instruction is accepted with its result, and that is all `exec` does. -/
theorem exec_eq_accept (i : Instr) (s : State) : exec i s = .next (s.accept (result i)) := by
  cases i <;> rfl

/-- Everything a step can do: it answers a next state, one of these four. -/
theorem step_cases (s : State) :
    (s.sample = .reset ∧ step s = .next s.resetCycle) ∨
    (s.sample = .nothing ∧ step s = .next s.finishCycle) ∨
    (s.sample = .reserved ∧ step s = .next s.acceptReserved.finishCycle) ∨
    (∃ i, s.sample = .instr i ∧ step s = .next (s.accept (result i)).finishCycle) := by
  unfold step
  cases h : s.sample <;> simp [exec_eq_accept]

end Sys2Proof.Machine
end

