-- ==== Sys2Proof/Laws/PerInstr.lean ====
section
/-! SUPPORT. Laws/PerInstr.lean: one lemma per constructor, for the statements over all instructions. -/

namespace Sys2Proof.Laws

/-- The request an instruction is encoded as is well formed: its opcode is one of the nineteen and the fields its
format ignores are 0 (R31, R37). -/
def EncodesWellFormed.Statement (i : Instr) : Prop := (encode i).wellFormed = true

theorem EncodesWellFormed.bcompl (a : Word) : EncodesWellFormed.Statement (.bcompl a) := by
  simp [EncodesWellFormed.Statement, encode, Request.wellFormed, Request.isDefined, Request.ignoredAreZero,
    Request.clearIgnored, Opcode.format]

theorem EncodesWellFormed.sign (a : Word) : EncodesWellFormed.Statement (.sign a) := by
  simp [EncodesWellFormed.Statement, encode, Request.wellFormed, Request.isDefined, Request.ignoredAreZero,
    Request.clearIgnored, Opcode.format]

theorem EncodesWellFormed.abs (a : Word) : EncodesWellFormed.Statement (.abs a) := by
  simp [EncodesWellFormed.Statement, encode, Request.wellFormed, Request.isDefined, Request.ignoredAreZero,
    Request.clearIgnored, Opcode.format]

theorem EncodesWellFormed.min (a b : Word) : EncodesWellFormed.Statement (.min a b) := by
  simp [EncodesWellFormed.Statement, encode, Request.wellFormed, Request.isDefined, Request.ignoredAreZero,
    Request.clearIgnored, Opcode.format]

theorem EncodesWellFormed.max (a b : Word) : EncodesWellFormed.Statement (.max a b) := by
  simp [EncodesWellFormed.Statement, encode, Request.wellFormed, Request.isDefined, Request.ignoredAreZero,
    Request.clearIgnored, Opcode.format]

theorem EncodesWellFormed.ispow2 (a : Word) : EncodesWellFormed.Statement (.ispow2 a) := by
  simp [EncodesWellFormed.Statement, encode, Request.wellFormed, Request.isDefined, Request.ignoredAreZero,
    Request.clearIgnored, Opcode.format]

theorem EncodesWellFormed.log2 (a : Word) : EncodesWellFormed.Statement (.log2 a) := by
  simp [EncodesWellFormed.Statement, encode, Request.wellFormed, Request.isDefined, Request.ignoredAreZero,
    Request.clearIgnored, Opcode.format]

theorem EncodesWellFormed.log10 (a : Word) : EncodesWellFormed.Statement (.log10 a) := by
  simp [EncodesWellFormed.Statement, encode, Request.wellFormed, Request.isDefined, Request.ignoredAreZero,
    Request.clearIgnored, Opcode.format]

theorem EncodesWellFormed.popcnt (a : Word) : EncodesWellFormed.Statement (.popcnt a) := by
  simp [EncodesWellFormed.Statement, encode, Request.wellFormed, Request.isDefined, Request.ignoredAreZero,
    Request.clearIgnored, Opcode.format]

theorem EncodesWellFormed.ctz (a : Word) : EncodesWellFormed.Statement (.ctz a) := by
  simp [EncodesWellFormed.Statement, encode, Request.wellFormed, Request.isDefined, Request.ignoredAreZero,
    Request.clearIgnored, Opcode.format]

theorem EncodesWellFormed.nextpow2 (a : Word) : EncodesWellFormed.Statement (.nextpow2 a) := by
  simp [EncodesWellFormed.Statement, encode, Request.wellFormed, Request.isDefined, Request.ignoredAreZero,
    Request.clearIgnored, Opcode.format]

theorem EncodesWellFormed.prevpow2 (a : Word) : EncodesWellFormed.Statement (.prevpow2 a) := by
  simp [EncodesWellFormed.Statement, encode, Request.wellFormed, Request.isDefined, Request.ignoredAreZero,
    Request.clearIgnored, Opcode.format]

theorem EncodesWellFormed.parity (a : Word) : EncodesWellFormed.Statement (.parity a) := by
  simp [EncodesWellFormed.Statement, encode, Request.wellFormed, Request.isDefined, Request.ignoredAreZero,
    Request.clearIgnored, Opcode.format]

theorem EncodesWellFormed.bitrev (a : Word) : EncodesWellFormed.Statement (.bitrev a) := by
  simp [EncodesWellFormed.Statement, encode, Request.wellFormed, Request.isDefined, Request.ignoredAreZero,
    Request.clearIgnored, Opcode.format]

theorem EncodesWellFormed.ilv2 (a b : Word) : EncodesWellFormed.Statement (.ilv2 a b) := by
  simp [EncodesWellFormed.Statement, encode, Request.wellFormed, Request.isDefined, Request.ignoredAreZero,
    Request.clearIgnored, Opcode.format]

theorem EncodesWellFormed.dilv2 (a b : Word) : EncodesWellFormed.Statement (.dilv2 a b) := by
  simp [EncodesWellFormed.Statement, encode, Request.wellFormed, Request.isDefined, Request.ignoredAreZero,
    Request.clearIgnored, Opcode.format]

theorem EncodesWellFormed.ilv3 (a b c : Word) : EncodesWellFormed.Statement (.ilv3 a b c) := by
  simp [EncodesWellFormed.Statement, encode, Request.wellFormed, Request.isDefined, Request.ignoredAreZero,
    Request.clearIgnored, Opcode.format]

theorem EncodesWellFormed.dilv3 (a b : Word) : EncodesWellFormed.Statement (.dilv3 a b) := by
  simp [EncodesWellFormed.Statement, encode, Request.wellFormed, Request.isDefined, Request.ignoredAreZero,
    Request.clearIgnored, Opcode.format]

theorem EncodesWellFormed.nextcomb (a : Word) : EncodesWellFormed.Statement (.nextcomb a) := by
  simp [EncodesWellFormed.Statement, encode, Request.wellFormed, Request.isDefined, Request.ignoredAreZero,
    Request.clearIgnored, Opcode.format]

end Sys2Proof.Laws
end

