-- ==== Sys2Proof/Laws/Safety.lean ====
section
/-! SUPPORT. Laws/Safety.lean: the small lemmas of the words that the statements use. -/

namespace Sys2Proof.Machine

/-- What an instruction is answered with is its result, and only that. -/
theorem answers_iff {i : Instr} {s : State} {v : Word} : Answers i s v ↔ v = result i := by
  rw [Answers, exec_eq_accept]
  constructor
  · intro h
    simp only [Host.Outcome.next.injEq, State.accept, State.mk.injEq, List.append_cancel_left_eq, List.cons.injEq,
      InFlight.mk.injEq] at h
    exact h.2.2.2.2.1.1.1.symm
  · rintro rfl
    rfl

@[simp] theorem responses_zero (s : State) : responses 0 s = [] := rfl

/-- One more cycle of responses, once its step is known. -/
theorem responses_succ {n : Nat} {s t : State} (h : step s = .next t) :
    responses (n + 1) s = (if t.respValid then [t.r] else []) ++ responses n t := by
  simp [responses, h]

/-- One more cycle of a run, once its step is known. -/
theorem run_succ {n : Nat} {s t : State} (h : step s = .next t) :
    Host.Core.run core (n + 1) s = Host.Core.run core n t := by
  have h' : core.step s = .next t := h
  simp only [Host.Core.run, h']

@[simp] theorem presented_nil : presented [] = [] := rfl

@[simp] theorem presented_cons (p : PortIn) (ps : List PortIn) :
    presented (p :: ps) = (if p.reqValid then [p.req] else []) ++ presented ps := by
  cases h : p.reqValid <;> simp [presented, h]

end Sys2Proof.Machine
end

