-- ==== Sys2Proof/Tests/Slice0.lean ====
section
/-! SUPPORT. Tests/Slice0.lean: small checks of the model against values that the spec prints, and witnesses that the
hypotheses of the statements can be met. Expected values come from spec/95_test_vectors.md and the rules' own examples. -/

namespace Sys2Proof.Tests

open Sys2Proof.Machine

/-- A block with latency `lat`, nothing in flight, and one request on its ports. -/
def presenting (lat : Nat) (op : Opcode) (a b c : Word) : State where
  lat := lat
  port := { rst := false, reqValid := true, req := { op := op, a := a, b := b, c := c } }
  respValid := false
  r := 0
  inFlight := []
  drive := []
  draws := 0

/-- The answer of the request accepted last. -/
def accepted : Host.Outcome State Fault Refusal → Option Word
  | .next t => t.inFlight.getLast?.map (·.answer)
  | .fault _ => none
  | .refused _ => none

/-- What the response port carried in the cycle of a step: `r` if `resp_valid` = 1. -/
def responded : Host.Outcome State Fault Refusal → Option Word
  | .next t => if t.respValid then some t.r else none
  | .fault _ => none
  | .refused _ => none

/-- The answer an instruction is accepted with, at a block with nothing in flight. -/
def answer (i : Instr) : Option Word := accepted (exec i (presenting 2 0 0 0 0))

/-! ### WellFormed: each check refuses an ill-formed request (R31, R35, R37) -/

theorem test_wellFormed_accepts :
    ({ op := 0x12, a := 0x300, b := 0, c := 0 } : Request).wellFormed = true := by decide

theorem test_wellFormed_refuses_reserved_opcode :
    ({ op := 0x13, a := 0, b := 0, c := 0 } : Request).isDefined = false := by decide

theorem test_wellFormed_refuses_filled_ignored_field :
    ({ op := 0x08, a := 0xF0F00F0F, b := 0, c := 0x12345678 } : Request).ignoredAreZero = false := by decide

/-! ### Decode: for every constructor a word written out from the fields of R30 and the opcodes of R31:
`REQ[100:96]` the opcode's five bits, then `c`, `b`, `a` -/

theorem test_decode_bcompl :
    decodeTableWord 104 (0b00000 * 2 ^ 96 + 0x00000000 * 2 ^ 64 + 0x00000000 * 2 ^ 32 + 0x12345678) =
      some (.bcompl 0x12345678) := by decide

theorem test_decode_sign :
    decodeTableWord 104 (0b00001 * 2 ^ 96 + 0x00000000 * 2 ^ 64 + 0x00000000 * 2 ^ 32 + 0xFFFFFFD6) =
      some (.sign 0xFFFFFFD6) := by decide

theorem test_decode_abs :
    decodeTableWord 104 (0b00010 * 2 ^ 96 + 0x00000000 * 2 ^ 64 + 0x00000000 * 2 ^ 32 + 0xFFFFFFFB) =
      some (.abs 0xFFFFFFFB) := by decide

theorem test_decode_min :
    decodeTableWord 104 (0b00011 * 2 ^ 96 + 0x00000000 * 2 ^ 64 + 0x00000001 * 2 ^ 32 + 0xFFFFFFFF) =
      some (.min 0xFFFFFFFF 0x00000001) := by decide

theorem test_decode_max :
    decodeTableWord 104 (0b00100 * 2 ^ 96 + 0x00000000 * 2 ^ 64 + 0x7FFFFFFF * 2 ^ 32 + 0x80000000) =
      some (.max 0x80000000 0x7FFFFFFF) := by decide

theorem test_decode_ispow2 :
    decodeTableWord 104 (0b00101 * 2 ^ 96 + 0x00000000 * 2 ^ 64 + 0x00000000 * 2 ^ 32 + 0x40000000) =
      some (.ispow2 0x40000000) := by decide

theorem test_decode_log2 :
    decodeTableWord 104 (0b00110 * 2 ^ 96 + 0x00000000 * 2 ^ 64 + 0x00000000 * 2 ^ 32 + 0x00010000) =
      some (.log2 0x00010000) := by decide

theorem test_decode_log10 :
    decodeTableWord 104 (0b00111 * 2 ^ 96 + 0x00000000 * 2 ^ 64 + 0x00000000 * 2 ^ 32 + 0x000003E8) =
      some (.log10 0x000003E8) := by decide

theorem test_decode_popcnt :
    decodeTableWord 104 (0b01000 * 2 ^ 96 + 0x00000000 * 2 ^ 64 + 0x00000000 * 2 ^ 32 + 0xF0F00F0F) =
      some (.popcnt 0xF0F00F0F) := by decide

theorem test_decode_ctz :
    decodeTableWord 104 (0b01001 * 2 ^ 96 + 0x00000000 * 2 ^ 64 + 0x00000000 * 2 ^ 32 + 0x00000300) =
      some (.ctz 0x00000300) := by decide

theorem test_decode_nextpow2 :
    decodeTableWord 104 (0b01010 * 2 ^ 96 + 0x00000000 * 2 ^ 64 + 0x00000000 * 2 ^ 32 + 0x000003E8) =
      some (.nextpow2 0x000003E8) := by decide

theorem test_decode_prevpow2 :
    decodeTableWord 104 (0b01011 * 2 ^ 96 + 0x00000000 * 2 ^ 64 + 0x00000000 * 2 ^ 32 + 0x000003E8) =
      some (.prevpow2 0x000003E8) := by decide

theorem test_decode_parity :
    decodeTableWord 104 (0b01100 * 2 ^ 96 + 0x00000000 * 2 ^ 64 + 0x00000000 * 2 ^ 32 + 0x0000010F) =
      some (.parity 0x0000010F) := by decide

theorem test_decode_bitrev :
    decodeTableWord 104 (0b01101 * 2 ^ 96 + 0x00000000 * 2 ^ 64 + 0x00000000 * 2 ^ 32 + 0x12345678) =
      some (.bitrev 0x12345678) := by decide

theorem test_decode_ilv2 :
    decodeTableWord 104 (0b01110 * 2 ^ 96 + 0x00000000 * 2 ^ 64 + 0x00000003 * 2 ^ 32 + 0x00000005) =
      some (.ilv2 0x00000005 0x00000003) := by decide

theorem test_decode_dilv2 :
    decodeTableWord 104 (0b01111 * 2 ^ 96 + 0x00000000 * 2 ^ 64 + 0x00000021 * 2 ^ 32 + 0x0000001B) =
      some (.dilv2 0x0000001B 0x00000021) := by decide

theorem test_decode_ilv3 :
    decodeTableWord 104 (0b10000 * 2 ^ 96 + 0x00000001 * 2 ^ 64 + 0x00000003 * 2 ^ 32 + 0x00000005) =
      some (.ilv3 0x00000005 0x00000003 0x00000001) := by decide

theorem test_decode_dilv3 :
    decodeTableWord 104 (0b10001 * 2 ^ 96 + 0x00000000 * 2 ^ 64 + 0x00000001 * 2 ^ 32 + 0x0000002F) =
      some (.dilv3 0x0000002F 0x00000001) := by decide

theorem test_decode_nextcomb :
    decodeTableWord 104 (0b10010 * 2 ^ 96 + 0x00000000 * 2 ^ 64 + 0x00000000 * 2 ^ 32 + 0x00000300) =
      some (.nextcomb 0x00000300) := by decide

/-- A word of 95_test_vectors.md with its ignored fields filled. -/
theorem test_decode_drops_ignored_fields :
    decodeTableWord 104 0x0DFFFFFFFFFFFFFFFF00000001 = some (.bitrev 1) := by decide

/-- R35 and R30: a reserved opcode and a number of more than 101 bits are no instructions. -/
theorem test_decode_rejects_by_name :
    decodePacked (0b10011 * 2 ^ 96) = .error (.reservedOpcode 0x13) ∧
      decodePacked (2 ^ 101) = .error (.notARequest (2 ^ 101)) := by decide

/-- R37's example: `MIN -1, 1` is `0x030000000000000001FFFFFFFF`. -/
theorem test_encode_min : encodePacked (.min 0xFFFFFFFF 1) = 0x030000000000000001FFFFFFFF := by decide

/-! ### Results (95_test_vectors.md sections 1 to 3): ordinary values, extremes, wraps -/

theorem test_result_bcompl :
    answer (.bcompl 0x12345678) = some 0xEDCBA987 ∧
    answer (.bcompl 0x7FFFFFFF) = some 0x80000000 := by decide

theorem test_result_sign :
    answer (.sign 1) = some 1 ∧
    answer (.sign 0xFFFFFFFF) = some 0xFFFFFFFF ∧
    answer (.sign 0) = some 0 := by decide

theorem test_result_abs :
    answer (.abs 0xFFFFFFFB) = some 5 ∧
    answer (.abs 0x80000001) = some 0x7FFFFFFF ∧
    answer (.abs 0x80000000) = some 0x80000000 := by decide

theorem test_result_min :
    answer (.min 0x80000000 0x7FFFFFFF) = some 0x80000000 ∧
    answer (.min 1 0xFFFFFFFF) = some 0xFFFFFFFF ∧
    answer (.min 7 7) = some 7 := by decide

theorem test_result_max :
    answer (.max 0x80000000 0x7FFFFFFF) = some 0x7FFFFFFF ∧
    answer (.max 1 0xFFFFFFFF) = some 1 ∧
    answer (.max 7 7) = some 7 := by decide

theorem test_result_ispow2 :
    answer (.ispow2 0) = some 0 ∧
    answer (.ispow2 0x80000000) = some 1 ∧
    answer (.ispow2 0xC0000000) = some 0 := by decide

theorem test_result_log2 :
    answer (.log2 0) = some 0 ∧
    answer (.log2 1) = some 0 ∧
    answer (.log2 0x0000FFFF) = some 15 ∧
    answer (.log2 0x80000000) = some 31 := by decide

theorem test_result_log10 :
    answer (.log10 9) = some 0 ∧
    answer (.log10 10) = some 1 ∧
    answer (.log10 0x7FFFFFFF) = some 9 ∧
    answer (.log10 0x80000000) = some 0 := by decide

theorem test_result_popcnt :
    answer (.popcnt 0xF0F00F0F) = some 16 ∧
    answer (.popcnt 0xFFFFFFFF) = some 32 ∧
    answer (.popcnt 0x80000000) = some 1 := by decide

theorem test_result_ctz :
    answer (.ctz 0) = some 32 ∧
    answer (.ctz 0xFFFF0000) = some 16 ∧
    answer (.ctz 0x80000000) = some 31 := by decide

theorem test_result_nextpow2 :
    answer (.nextpow2 0) = some 1 ∧
    answer (.nextpow2 0x40000000) = some 0x40000000 ∧
    answer (.nextpow2 0x40000001) = some 0x80000000 ∧
    answer (.nextpow2 0x80000000) = some 0x80000000 ∧
    answer (.nextpow2 0x80000001) = some 0 := by decide

theorem test_result_prevpow2 :
    answer (.prevpow2 0) = some 0 ∧
    answer (.prevpow2 1) = some 1 ∧
    answer (.prevpow2 0x7FFFFFFF) = some 0x40000000 ∧
    answer (.prevpow2 0xFFFFFFFF) = some 0x80000000 := by decide

theorem test_result_parity :
    answer (.parity 0x0000010F) = some 1 ∧
    answer (.parity 0xFFFFFFFF) = some 0 ∧
    answer (.parity 0x80000000) = some 1 := by decide

theorem test_result_bitrev :
    answer (.bitrev 0x12345678) = some 0x1E6A2C48 ∧
    answer (.bitrev 0xA5000000) = some 0x000000A5 := by decide

theorem test_result_ilv2 :
    answer (.ilv2 0x1234 0xABCD) = some 0x898EA5B2 ∧
    answer (.ilv2 0x00012345 0) = some 0x04051011 := by decide

theorem test_result_dilv2 :
    answer (.dilv2 0xFFFFFFFF 31) = some 1 ∧
    answer (.dilv2 0x80000000 1) = some 0x8000 ∧
    answer (.dilv2 0x1B 0x21) = some 3 := by decide

theorem test_result_ilv3 :
    answer (.ilv3 5 9 0x3FF) = some 0x24924D67 ∧
    answer (.ilv3 0x400 0 0) = some 0 ∧
    answer (.ilv3 0 0 0x200) = some 0x20000000 := by decide

theorem test_result_dilv3 :
    answer (.dilv3 0xFFFFFFFF 31) = some 1 ∧
    answer (.dilv3 0x3FFFFFFF 3) = some 0x1FF ∧
    answer (.dilv3 0x2F 0x22) = some 3 := by decide

theorem test_result_nextcomb :
    answer (.nextcomb 0x300) = some 0x401 ∧
    answer (.nextcomb 0) = some 0x7FFFFFFF ∧
    answer (.nextcomb 0x80000000) = some 0xFFFFFFFF ∧
    answer (.nextcomb 0xC0000000) = some 1 := by decide

/-- R21's reading examples. -/
theorem test_rom_reads : rev8 0x01 = 0x80 ∧ rev8 0x12 = 0x48 ∧ rev8 0xA5 = 0xA5 ∧ rev8 0xF0 = 0x0F := by decide

/-! ### Cycles: single cycles of the trace of 95_test_vectors.md section 6, `LAT` = 2 -/

/-- Cycle 3: an idle cycle in which request A is due and request B waits one cycle more. -/
def cycle3 : State :=
  { presenting 2 0 0 0 0 with
    port := PortIn.idle
    inFlight := [{ answer := 0x10, wait := 0 }, { answer := 0xFFFFFFFF, wait := 1 }] }

/-- Cycle 7: reset, with D and E in flight and F presented. -/
def cycle7 : State :=
  { presenting 2 0x08 1 0 0 with
    port := { rst := true, reqValid := true, req := { op := 0x08, a := 1, b := 0, c := 0 } }
    inFlight := [{ answer := 0x80000000, wait := 0 }, { answer := 0x20, wait := 1 }]
    drive := [{ rst := false, reqValid := true, req := { op := 0x09, a := 0, b := 0, c := 0 } }] }

/-- Cycle 1: request A is accepted and nothing is answered. -/
theorem test_cycle_accepts_request :
    responded (step (presenting 2 0x08 0xF0F00F0F 0 0)) = none ∧
      accepted (step (presenting 2 0x08 0xF0F00F0F 0 0)) = some 0x10 := by decide

/-- Cycle 3: response A. -/
theorem test_cycle_answers_due_request :
    responded (step cycle3) = some 0x10 ∧ accepted (step cycle3) = some 0xFFFFFFFF := by decide

/-- Cycle 7: no response, D, E and F dropped, and request G is presented next. -/
theorem test_cycle_reset_drops_requests :
    responded (step cycle7) = none ∧ accepted (step cycle7) = none ∧
      ∃ t, step cycle7 = .next t ∧ t.inFlight = [] ∧ t.port.req.op = 0x09 := by
  exact ⟨by decide, by decide, _, rfl, rfl, rfl⟩

/-- Cycle 8 to 10: request G, CTZ 0, is the first answered after reset. -/
theorem test_cycle_first_response_after_reset : responses 4 cycle7 = [0x20] := by decide

/-- With `LAT` = 0 the answer comes in the request's own cycle. -/
theorem test_cycle_zero_latency : responded (step (presenting 0 0x0D 1 0 0)) = some 0x80000000 := by decide

/-- A reserved opcode is answered on time with a free value (R35). -/
theorem test_cycle_reserved_opcode :
    step (presenting 0 0x13 0 0 0) =
      .next { presenting 0 0x13 0 0 0 with
        port := PortIn.idle, respValid := true, r := Config.freeWord 0, draws := 1 } := by rfl

/-- The first step after reset runs the word placed on the ports, whatever the latency. -/
theorem test_fetch_after_reset :
    (State.reset.withFetchWord 104 0x030000000000000001FFFFFFFF).sample = .instr (.min 0xFFFFFFFF 1) := by decide

/-! ### The assembler (R37, R38) -/

theorem test_assemble_min :
    (readLine "MIN -1, 1").toOption.map (assemble []) =
      some (.ok { op := 0x03, a := 0xFFFFFFFF, b := 1, c := 0 }) := by decide

theorem test_assemble_alias_and_symbol :
    (readLine "countTrailingZeros INT_MIN ; comment").toOption.map (assemble []) =
      some (.ok { op := 0x09, a := 0x80000000, b := 0, c := 0 }) := by decide

theorem test_assemble_refuses :
    readLine "FOO 1" = .error .unknownMnemonic ∧ readLine "CTZ 0x100000000" = .error .badOperand ∧
      (readLine "MIN 1").toOption.map (assemble []) = some (.error .operandCount) ∧
      (readLine "CTZ $0").toOption.map (assemble []) = some (.error (.resultNotReceived 0)) := by decide

/-- The choices of log 13, where R37 is silent. -/
theorem test_white_space_and_numbers :
    readLine "CTZ$0" = .error .unknownMnemonic ∧ readLine "CTZ-1" = .error .unknownMnemonic ∧
      readLine "CTZ - 1" = .error .badOperand ∧ readLine "CTZ $ 0" = .error .badOperand ∧
      readLine " CTZ  007 ;x" = .ok { op := 0x09, operands := [.word 7] } ∧
      readLine "CTZ -4294967295" = .ok { op := 0x09, operands := [.word 1] } := by decide

/-- The first lines of program P1. -/
theorem test_stream_p1 :
    streamResults []
      [{ op := 0x0E, operands := [.word 0x1234, .word 0xABCD] }, { op := 0x0F, operands := [.resultOf 0, .word 0] },
       { op := 0x0F, operands := [.resultOf 0, .word 0x21] }] =
      .ok [0x898EA5B2, 0x1234, 0xABCD] := by decide

/-! ### Witnesses: for each statement with hypotheses, a concrete case that meets them all -/

/-- A request in assembled form. -/
def wellFormedRequest : Request := { op := 0x12, a := 0x300, b := 0, c := 0 }

theorem test_witness_DecodedRequestEncodesToItsUsedFields :
    decode wellFormedRequest = .ok (.nextcomb 0x300) ∧ wellFormedRequest.wellFormed = true := by decide

theorem test_witness_DecodingNeedsTheOpcodeAlone :
    ({ wellFormedRequest with op := 0x12 } : Request).op.toNat < 19 ∧
      19 ≤ ({ wellFormedRequest with op := 0x13 } : Request).op.toNat := by decide

theorem test_witness_IgnoredBitsHaveNoEffect :
    let q : Request := { op := 0x0F, a := 0x1B, b := 0xABCDEF01, c := 0x55555555 }
    let q' : Request := { op := 0x0F, a := 0x1B, b := 1, c := 0 }
    q.usedOnly = q'.usedOnly ∧ q ≠ q' := by decide

theorem test_witness_StepRunsTheDecodedInstruction :
    let s := presenting 2 0x08 0xF0F00F0F 0 0
    s.port.rst = false ∧ s.port.reqValid = true ∧ decode s.port.req = .ok (.popcnt 0xF0F00F0F) := by decide

theorem test_witness_PresentedTableWordIsRunByTheNextStep :
    decodeTableWord 104 0x0812345678DEADBEEFF0F00F0F = some (.popcnt 0xF0F00F0F) := by decide

theorem test_witness_CycleEndAnswersTheDueRequest_due :
    cycle3.inFlight = { answer := 0x10, wait := 0 } :: [{ answer := 0xFFFFFFFF, wait := 1 }] := by decide

theorem test_witness_CycleEndAnswersTheDueRequest_waiting :
    ∀ v rest, ({ cycle3 with inFlight := [{ answer := 0x10, wait := 1 }] } : State).inFlight ≠
      { answer := v, wait := 0 } :: rest := by
  intro v rest h
  simp at h

theorem test_witness_HostDrivesTheNextCycle : step cycle7 = .next cycle7.resetCycle := by rfl

theorem test_witness_IdleCycleAcceptsNothing : cycle3.port.rst = false ∧ cycle3.port.reqValid = false := by decide

theorem test_witness_ResetCycleDropsEverythingInFlight :
    cycle7.port.rst = true ∧ NoReset cycle7.drive ∧
      List.Forall₂ (fun q v => ∃ i, decode q = .ok i ∧ Answers i cycle7 v) (presented cycle7.drive) [32] :=
  ⟨by decide, by decide, .cons ⟨.ctz 0, by decide, by rfl⟩ .nil⟩

theorem test_witness_ResetCycleDropsEverythingInFlight_zeroLatency :
    let s := { cycle7 with lat := 0, inFlight := [] }
    s.port.rst = true ∧ s.PipelineOk ∧ s.lat = 0 := by decide

theorem test_witness_ReservedOpcodeIsAnsweredOnTime :
    let s := { presenting 2 0x13 0 0 0 with drive := [PortIn.idle, PortIn.idle] }
    s.port.rst = false ∧ s.port.reqValid = true ∧ 19 ≤ s.port.req.op.toNat ∧ s.PipelineOk ∧
      NoReset (s.drive.take s.lat) := by decide

theorem test_witness_StepKeepsThePipelineInForm :
    cycle3.PipelineOk ∧ step cycle3 = .next cycle3.finishCycle := ⟨by decide, rfl⟩

/-- Two requests in flight, a third presented, and one more cycle driven. -/
def busy : State :=
  { presenting 3 0x08 0xF0F00F0F 0 0 with
    inFlight := [{ answer := 7, wait := 0 }, { answer := 9, wait := 2 }]
    drive := [{ rst := false, reqValid := true, req := { op := 0x1F, a := 0, b := 0, c := 0 } }] }

theorem test_witness_ResponseAppearsAfterLatCycles :
    busy.PipelineOk ∧ busy.port.rst = false ∧ busy.port.reqValid = true ∧
      decode busy.port.req = .ok (.popcnt 0xF0F00F0F) ∧ NoReset (busy.drive.take busy.lat) ∧
      Answers (.popcnt 0xF0F00F0F) busy 16 :=
  ⟨by decide, by decide, by decide, by decide, by decide, by rfl⟩

theorem test_witness_ResponsesFollowRequestOrder :
    busy.PipelineOk ∧ NoReset (busy.port :: busy.drive) ∧
      busy.inFlight[1]? = some { answer := 9, wait := 2 } ∧
      (presented (busy.port :: busy.drive))[0]? = some busy.port.req ∧
      decode busy.port.req = .ok (.popcnt 0xF0F00F0F) ∧ Answers (.popcnt 0xF0F00F0F) busy 16 :=
  ⟨by decide, by decide, by decide, by decide, by decide, by rfl⟩

theorem test_witness_ZeroLatencyIsCombinational :
    let s := presenting 0 0x0D 1 0 0
    s.lat = 0 ∧ s.inFlight = [] ∧ s.port.reqValid = true ∧ s.port.rst = false ∧
      decode s.port.req = .ok (.bitrev 1) ∧ Answers (.bitrev 1) s 0x80000000 :=
  ⟨rfl, rfl, rfl, rfl, by decide, by rfl⟩

theorem test_witness_ResultsDoNotDependOnTheState : ({ wellFormedRequest with op := 0x12 } : Request).op.toNat < 19 := by
  decide

/-- The clauses of the statements of R41 to R51, each at a boundary value of its range. -/
theorem test_witness_sign_abs_clauses :
    0 < (1 : Word).toInt ∧ (0xFFFFFFFF : Word).toInt < 0 ∧ (0x7FFFFFFF : Word).getLsbD 31 = false ∧
      (0x80000000 : Word).getLsbD 31 = true ∧ (0x80000001 : Word) ≠ 0x80000000 := by decide

theorem test_witness_min_max_clauses :
    (0x80000000 : Word).toInt < (0x7FFFFFFF : Word).toInt ∧ (7 : Word).toInt ≤ (7 : Word).toInt := by decide

theorem test_witness_ispow2_clauses :
    ((0x40000000 : Word) ≠ 0 ∧ (0x40000000 : Word) &&& (0x40000000 - 1) = 0) ∧
      (3 : Word) &&& (3 - 1) ≠ 0 := by decide

theorem test_witness_log10_clauses :
    1 ≤ (1 : Word).toInt ∧ (0 : Word).toInt < 1 ∧ (0x80000000 : Word).toInt < 1 := by decide

theorem test_witness_nextpow2_prevpow2_clauses :
    (1 ≤ (1 : Word).toNat ∧ (0x40000000 : Word).toNat ≤ 2 ^ 30) ∧
      (2 ^ 30 < (0x40000001 : Word).toNat ∧ (0x80000000 : Word).toNat ≤ 2 ^ 31) ∧
      2 ^ 31 < (0x80000001 : Word).toNat ∧ (0x80000000 : Word).toInt < 0 := by decide

theorem test_witness_Ispow2HoldsForSingleBitWordsOnly :
    Answers (.ispow2 0x80000000) cycle3 1 ∧ (0x80000000 : Word) = 1#32 <<< 31 ∧ Answers (.ispow2 3) cycle3 0 :=
  ⟨by rfl, by decide, by rfl⟩

theorem test_witness_FillCascadeComputesPrevpow2 :
    31 < 32 ∧ 2 ^ 31 ≤ (0xFFFFFFFF : Word).toNat ∧ (0xFFFFFFFF : Word).toNat < 2 ^ (31 + 1) := by decide

theorem test_witness_CtzOfBitrevCountsLeadingZeros : (1 : Word) ≠ 0 := by decide

theorem test_witness_DependentRequestWaitsForItsResponse :
    earliestDependentIssue 0 5 true = 6 ∧ earliestDependentIssue 2 5 false = 7 := by decide

theorem test_witness_NextcombIsTheLeastGreaterWordOfEqualCount :
    callerMeets (.nextcomb 0x60000000) = true ∧ (0x60000000 : Word).toNat < (0x80000001 : Word).toNat ∧
      popc 0x80000001 = popc 0x60000000 := by decide

theorem test_witness_BrokenObligationsAreAnsweredAsTabled :
    callerMeets (.abs 0x80000000) = false ∧ callerMeets (.ispow2 0x80000000) = false ∧
      callerMeets (.log2 0) = false ∧ callerMeets (.log10 0xFFFFFFFF) = false ∧
      callerMeets (.nextpow2 0x40000001) = false ∧ callerMeets (.nextpow2 0xFFFFFFFF) = false ∧
      callerMeets (.prevpow2 0x80000000) = false := by decide

/-- The rows of R74 whose value is a formula, each at the first operand past its range; NEXTCOMB at both kinds. -/
theorem test_witness_BrokenObligationsAreAnsweredAsTabled_formulas :
    callerMeets (.ilv2 0x10000 0) = false ∧ callerMeets (.ilv2 0 0x10000) = false ∧
      callerMeets (.ilv3 0x400 0 0) = false ∧ callerMeets (.ilv3 0 0 0x400) = false ∧
      callerMeets (.dilv2 0xFF 2) = false ∧ callerMeets (.dilv3 0xFF 3) = false ∧
      (callerMeets (.dilv3 0x40000000 2) = false ∧ (2 : Word).toNat ≤ 2) ∧
      callerMeets (.nextcomb 0) = false ∧ callerMeets (.nextcomb 0xC0000000) = false := by decide

theorem test_witness_AssembledLineIsAWellFormedRequest :
    let line : Line := { op := 0x03, operands := [.resultOf 0, .word 0xFF] }
    assemble [7] line = .ok { op := 0x03, a := 7, b := 0xFF, c := 0 } ∧ line.operands[1]? = some (.word 0xFF) := by
  decide

theorem test_witness_AssembledLineIsAWellFormedRequest_counts :
    let line : Line := { op := 0x03, operands := [.resultOf 0, .word 0xFF] }
    let short : Line := { op := 0x03, operands := [.word 0xFF] }
    line.op.format = some .B ∧ line.operands.length = Format.B.arity ∧
      (∀ j, .resultOf j ∈ line.operands → j < [(7 : Word)].length) ∧
      short.op.format = some .B ∧ short.operands.length ≠ Format.B.arity := by
  refine ⟨by decide, by decide, fun j hj => ?_, by decide, by decide⟩
  simp_all

/-- One line, presented at a block of latency 2 after an idle cycle. -/
theorem test_witness_BlockAnswersAStreamWithItsResults :
    let s := { cycle3 with
      inFlight := []
      drive := [{ rst := false, reqValid := true, req := { op := 0x09, a := 0x300, b := 0, c := 0 } }] }
    streamResults [] [{ op := 0x09, operands := [.word 0x300] }] = .ok [8] ∧ s.inFlight = [] ∧
      NoReset (s.port :: s.drive) ∧
      presented (s.port :: s.drive) = [{ op := 0x09, a := 0x300, b := 0, c := 0 }] := by decide

end Sys2Proof.Tests
end

section
/-! Laws of the decoder, and the proof of O19. A defined opcode decodes, and `result` of the instruction, in which no state
occurs, is its answer from every state. -/

namespace Sys2Proof.Machine

/-- The decoder rejects reserved opcodes only (R31, R35): its nineteen rows are the opcodes below 0x13. -/
theorem reserved_of_decode_error {q : Request} {e : DecodeError} (h : decode q = .error e) : 19 ≤ q.op.toNat := by
  unfold decode at h
  split at h
  case h_20 =>
    -- The row for every other opcode: it is none of the nineteen.
    simp only [imp_false] at *
    bv_omega
  all_goals cases h

/-- A request with a defined opcode decodes, whatever its operand fields hold (R36). -/
theorem decode_ok_of_defined {q : Request} (hdef : q.op.toNat < 19) : ∃ i, decode q = .ok i := by
  cases h : decode q with
  | ok i => exact ⟨i, rfl⟩
  | error e => exact absurd (reserved_of_decode_error h) (Nat.not_le.mpr hdef)

/-- Settles O19: the value is `result i`, chosen before the state is. -/
theorem resultsDoNotDependOnTheState : Obligations.ResultsDoNotDependOnTheState := by
  intro q hdef
  obtain ⟨i, hi⟩ := decode_ok_of_defined hdef
  exact ⟨i, result i, hi, fun _ => answers_iff.mpr rfl⟩

end Sys2Proof.Machine
end

section
/-! One equation of `step` for each kind of cycle (R16, R35, R70), in terms of the ports, and what the end of a cycle does;
the proofs of O6, O8, O10 and O14. -/

namespace Sys2Proof.Machine

/-- `rst` = 1 wins over everything else on the ports (R62, R70). -/
theorem step_of_reset {s : State} (hrst : s.port.rst = true) : step s = .next s.resetCycle := by
  have hs : s.sample = .reset := by simp [State.sample, hrst]
  simp [step, hs]

theorem step_of_idle {s : State} (hrst : s.port.rst = false) (hreq : s.port.reqValid = false) :
    step s = .next s.finishCycle := by
  have hs : s.sample = .nothing := by simp [State.sample, hrst, hreq]
  simp [step, hs]

theorem step_of_instr {s : State} {i : Instr} (hrst : s.port.rst = false) (hreq : s.port.reqValid = true)
    (hi : decode s.port.req = .ok i) : step s = .next (s.accept (result i)).finishCycle := by
  have hs : s.sample = .instr i := by simp [State.sample, hrst, hreq, hi]
  simp [step, hs, exec_eq_accept]

theorem step_of_reserved {s : State} {e : DecodeError} (hrst : s.port.rst = false) (hreq : s.port.reqValid = true)
    (he : decode s.port.req = .error e) : step s = .next s.acceptReserved.finishCycle := by
  have hs : s.sample = .reserved := by simp [State.sample, hrst, hreq, he]
  simp [step, hs]

/-- A cycle without reset adds at most one request, with `LAT` cycles to wait, behind those in flight, and then ends. -/
theorem step_without_reset {s : State} (hrst : s.port.rst = false) :
    ∃ t : State, step s = .next t.finishCycle ∧ t.lat = s.lat ∧ t.drive = s.drive ∧
      (t.inFlight = s.inFlight ∨ ∃ v, t.inFlight = s.inFlight ++ [{ answer := v, wait := s.lat }]) := by
  cases hreq : s.port.reqValid with
  | false => exact ⟨s, step_of_idle hrst hreq, rfl, rfl, .inl rfl⟩
  | true =>
    cases hd : decode s.port.req with
    | ok i => exact ⟨_, step_of_instr hrst hreq hd, rfl, rfl, .inr ⟨_, rfl⟩⟩
    | error e => exact ⟨_, step_of_reserved hrst hreq hd, rfl, rfl, .inr ⟨_, rfl⟩⟩

/-- The rest of a cycle does not look at the input ports. -/
theorem State.finishCycle_of_port (s : State) (p : PortIn) :
    State.finishCycle { s with port := p } = s.finishCycle := by
  have hrespond : State.respond { s with port := p } = { s.respond with port := p } := by
    simp only [State.respond]
    split
    · rfl
    · split_ifs <;> rfl
  have hnext (t : State) : State.nextInputs { t with port := p } = t.nextInputs := rfl
  calc State.finishCycle { s with port := p }
      = State.nextInputs { s.respond.age with port := p } := by rw [State.finishCycle, hrespond]; rfl
    _ = s.finishCycle := hnext _

/-- A queue whose oldest request is not due, or which is empty. -/
theorem State.respond_not_due {s : State} (h : ∀ v rest, s.inFlight ≠ { answer := v, wait := 0 } :: rest) :
    s.respond = s.noResponse := by
  obtain ⟨⟨v, w⟩, rest, hq, hw, -⟩ | ⟨-, hr⟩ := s.respond_cases
  · cases hw
    exact absurd hq (h v rest)
  · exact hr

/-- Settles O6: `exec` accepts the decoded instruction, and the step then ends the cycle. -/
theorem stepRunsTheDecodedInstruction : Obligations.StepRunsTheDecodedInstruction :=
  fun s i hrst hreq hi => ⟨s.accept (result i), exec_eq_accept i s, step_of_instr hrst hreq hi⟩

/-- Settles O8: by the two cases of the response port. -/
theorem cycleEndAnswersTheDueRequest : Obligations.CycleEndAnswersTheDueRequest := by
  intro t
  refine ⟨fun v rest hdue => ?_, fun hwait => ?_, by simp, by simp, by simp⟩
  · simp [State.respond_due hdue]
  · simp [State.respond_not_due hwait]

/-- Settles O10: both cycles are idle, and the end of a cycle does not look at the ports. -/
theorem idleCycleAcceptsNothing : Obligations.IdleCycleAcceptsNothing := by
  intro s q hrst hreq
  have hstep : step { s with port := { s.port with req := q } } = .next (State.finishCycle _) :=
    step_of_idle hrst hreq
  exact ⟨step_of_idle hrst hreq, by rw [hstep, State.finishCycle_of_port]⟩

/-- Settles O14: the queue of the reset state is empty (R71). -/
theorem resetStateIsSilentAndEmpty : Obligations.ResetStateIsSilentAndEmpty :=
  ⟨rfl, rfl, List.Pairwise.nil, fun _ he => absurd he List.not_mem_nil⟩

end Sys2Proof.Machine
end

section
/-! The in-flight queue (R17): what a cycle does to its form and to one request in it; the proofs of O15, O16 and O18.

Between the acceptance of a request and the end of its cycle a request may have `LAT` cycles to wait, one more than
`State.PipelineOk` allows between cycles, so the form is stated with its bound as an argument. -/

namespace Sys2Proof.Machine

/-- Strictly rising waits below `n`. -/
def RisingBelow (n : Nat) (q : List InFlight) : Prop :=
  q.Pairwise (fun x y => x.wait < y.wait) ∧ ∀ e ∈ q, e.wait < n

theorem pipelineOk_iff {s : State} : s.PipelineOk ↔ RisingBelow s.lat s.inFlight := Iff.rfl

theorem RisingBelow.succ {n : Nat} {q : List InFlight} (h : RisingBelow n q) : RisingBelow (n + 1) q :=
  ⟨h.1, fun e he => Nat.lt_succ_of_lt (h.2 e he)⟩

/-- A request that has the whole of the bound to wait goes behind the others. -/
theorem RisingBelow.append_newest {n : Nat} {q : List InFlight} (h : RisingBelow n q) (v : Word) :
    RisingBelow (n + 1) (q ++ [{ answer := v, wait := n }]) := by
  obtain ⟨hrise, hlt⟩ := h
  constructor
  · simpa [List.pairwise_append, hrise] using hlt
  · intro e he
    obtain he | rfl := by simpa using he
    · exact Nat.lt_succ_of_lt (hlt e he)
    · exact Nat.lt_succ_self n

/-- Rising waits below `n` leave room for `n` requests. -/
theorem RisingBelow.length_le {n : Nat} {q : List InFlight} (h : RisingBelow n q) : q.length ≤ n := by
  obtain ⟨hrise, hlt⟩ := h
  have hnodup : (q.map (·.wait)).Nodup := List.pairwise_map.mpr (hrise.imp Nat.ne_of_lt)
  have hsub : q.map (·.wait) ⊆ List.range n := by simpa [List.subset_def] using hlt
  simpa using (hnodup.subperm hsub).length_le

/-- The requests behind the oldest have at least one cycle to wait. -/
theorem RisingBelow.tail_wait_pos {n : Nat} {e : InFlight} {rest : List InFlight} (h : RisingBelow n (e :: rest)) :
    ∀ x ∈ rest, 0 < x.wait :=
  fun _ hx => Nat.zero_lt_of_lt (List.rel_of_pairwise_cons h.1 hx)

/-- Only the oldest request can be due. -/
theorem RisingBelow.due_is_oldest {n : Nat} {q : List InFlight} {e : InFlight} (h : RisingBelow n q) (he : e ∈ q)
    (hdue : e.wait = 0) : ∃ rest, q = e :: rest := by
  cases q with
  | nil => cases he
  | cons x rest =>
    obtain rfl | hrest := List.mem_cons.mp he
    · exact ⟨rest, rfl⟩
    · exact absurd hdue (h.tail_wait_pos e hrest).ne'

/-- One cycle less to wait for each lowers the bound by one, if none of them was due. -/
theorem RisingBelow.age {n : Nat} {q : List InFlight} (h : RisingBelow (n + 1) q) (hpos : ∀ e ∈ q, 0 < e.wait) :
    RisingBelow n (q.map fun e => { e with wait := e.wait - 1 }) := by
  obtain ⟨hrise, hlt⟩ := h
  constructor
  · refine List.pairwise_map.mpr (hrise.imp_of_mem fun hx hy hxy => ?_)
    exact Nat.sub_lt_sub_right (hpos _ hx) hxy
  · intro _ he
    obtain ⟨x, hx, rfl⟩ := List.mem_map.mp he
    have := hpos x hx
    have := hlt x hx
    show x.wait - 1 < n
    omega

/-- Putting out the due response leaves a queue of the same form, in which no request is due. -/
theorem RisingBelow.respond {n : Nat} {s : State} (h : RisingBelow n s.inFlight) :
    RisingBelow n s.respond.inFlight ∧ ∀ e ∈ s.respond.inFlight, 0 < e.wait := by
  obtain ⟨e, rest, hq, -, hr⟩ | ⟨hnot, hr⟩ := s.respond_cases
  · rw [hq] at h
    rw [hr]
    exact ⟨⟨h.1.of_cons, fun x hx => h.2 x (List.mem_cons_of_mem e hx)⟩, h.tail_wait_pos⟩
  · rw [hr, State.noResponse_inFlight]
    refine ⟨h, fun e he => Nat.pos_of_ne_zero fun hdue => ?_⟩
    obtain ⟨rest, hq⟩ := h.due_is_oldest he hdue
    exact hnot e rest hq hdue

/-- The end of a cycle brings the queue back from the bound within a cycle to the bound between cycles. -/
theorem RisingBelow.finishCycle {n : Nat} {s : State} (h : RisingBelow (n + 1) s.inFlight) :
    RisingBelow n s.finishCycle.inFlight := by
  obtain ⟨hform, hpos⟩ := h.respond
  rw [State.finishCycle_inFlight]
  exact hform.age hpos

/-- A cycle without reset, on a queue in form: what it adds, and that the form holds with one cycle more to wait. -/
theorem step_without_reset_of_pipelineOk {s : State} (hok : s.PipelineOk) (hrst : s.port.rst = false) :
    ∃ t : State, step s = .next t.finishCycle ∧ t.lat = s.lat ∧ t.drive = s.drive ∧ s.inFlight ⊆ t.inFlight ∧
      RisingBelow (t.lat + 1) t.inFlight := by
  obtain ⟨t, hstep, hlat, hdrive, hq⟩ := step_without_reset hrst
  refine ⟨t, hstep, hlat, hdrive, ?_⟩
  rw [hlat]
  obtain hq | ⟨v, hq⟩ := hq
  · rw [hq]
    exact ⟨List.Subset.refl _, (pipelineOk_iff.mp hok).succ⟩
  · rw [hq]
    exact ⟨List.subset_append_left _ _, (pipelineOk_iff.mp hok).append_newest v⟩

/-- Every cycle keeps the pipeline in form, and `LAT`. -/
theorem step_preserves_pipelineOk {s t : State} (hok : s.PipelineOk) (hstep : step s = .next t) :
    t.PipelineOk ∧ t.lat = s.lat := by
  cases hrst : s.port.rst with
  | true =>
    cases hstep.symm.trans (step_of_reset hrst)
    simp [State.PipelineOk]
  | false =>
    obtain ⟨u, hu, hlat, -, -, hform⟩ := step_without_reset_of_pipelineOk hok hrst
    cases hstep.symm.trans hu
    rw [pipelineOk_iff, State.finishCycle_lat]
    exact ⟨hform.finishCycle, hlat⟩

/-- Settles O15: the form is kept, and it leaves room for `LAT` requests. -/
theorem stepKeepsThePipelineInForm : Obligations.StepKeepsThePipelineInForm := by
  intro s t hok hstep
  obtain ⟨hok', hlat⟩ := step_preserves_pipelineOk hok hstep
  exact ⟨hok', hlat, (pipelineOk_iff.mp hok').length_le⟩

/-- A due request in a queue in form is answered at the end of the cycle. -/
theorem finishCycle_answers_due {n : Nat} {t : State} {v : Word} (h : RisingBelow n t.inFlight)
    (hv : { answer := v, wait := 0 } ∈ t.inFlight) : t.finishCycle.respValid = true ∧ t.finishCycle.r = v := by
  obtain ⟨rest, hq⟩ := h.due_is_oldest hv rfl
  simp [State.respond_due hq]

/-- A request that is not due stays in flight, with one cycle less to wait. -/
theorem mem_finishCycle_of_waiting {t : State} {v : Word} {k : Nat}
    (hv : { answer := v, wait := k + 1 } ∈ t.inFlight) :
    { answer := v, wait := k } ∈ t.finishCycle.inFlight := by
  have hstays : { answer := v, wait := k + 1 } ∈ t.respond.inFlight := by
    obtain ⟨e, rest, hq, hdue, hr⟩ | ⟨-, hr⟩ := t.respond_cases
    · rw [hq] at hv
      rw [hr]
      obtain rfl | hrest := List.mem_cons.mp hv
      · cases hdue
      · exact hrest
    · rwa [hr]
  rw [State.finishCycle_inFlight]
  exact List.mem_map.mpr ⟨_, hstays, rfl⟩

/-- Without reset the host's next input has `rst` = 0, and so have those after it. -/
theorem noReset_take_succ {k : Nat} {ps : List PortIn} (h : NoReset (ps.take (k + 1))) :
    (ps.headD PortIn.idle).rst = false ∧ NoReset (ps.tail.take k) := by
  cases ps with
  | nil => simp [PortIn.idle, NoReset]
  | cons p ps => exact List.forall_mem_cons.mp h

/-- A request with `k` cycles to wait when a cycle ends is answered `k` cycles after that one. By induction on `k`, over
every state, since every cycle between may accept a request. -/
theorem run_answers_after_wait {v : Word} (k : Nat) {t : State} (hform : RisingBelow (t.lat + 1) t.inFlight)
    (hv : { answer := v, wait := k } ∈ t.inFlight) (hnr : NoReset (t.drive.take k)) :
    ∃ u, Host.Core.run core k t.finishCycle = .next u ∧ u.respValid = true ∧ u.r = v := by
  induction k generalizing t with
  | zero => exact ⟨t.finishCycle, rfl, finishCycle_answers_due hform hv⟩
  | succ k ih =>
    obtain ⟨hrst, hnr'⟩ := noReset_take_succ hnr
    have hok : t.finishCycle.PipelineOk := by
      rw [pipelineOk_iff, State.finishCycle_lat]
      exact hform.finishCycle
    rw [← State.finishCycle_port] at hrst
    rw [← State.finishCycle_drive] at hnr'
    obtain ⟨u, hstep, -, hdrive, hsub, hform'⟩ := step_without_reset_of_pipelineOk hok hrst
    rw [run_succ hstep]
    exact ih hform' (hsub (mem_finishCycle_of_waiting hv)) (hdrive ▸ hnr')

/-- Settles O16: the request enters the queue with `LAT` cycles to wait, and with its own result. -/
theorem responseAppearsAfterLatCycles : Obligations.ResponseAppearsAfterLatCycles := by
  intro s i v hok hrst hreq hi hnr hv
  rw [run_succ (step_of_instr hrst hreq hi), ← answers_iff.mp hv]
  have hform : RisingBelow ((s.accept v).lat + 1) (s.accept v).inFlight := (pipelineOk_iff.mp hok).append_newest v
  exact run_answers_after_wait s.lat hform (by simp) hnr

/-- The end of a cycle in which the one request in flight is due: it is answered, and nothing is left (R16, `LAT` = 0). -/
theorem finishCycle_of_only_due {t : State} {v : Word} (h : t.inFlight = [{ answer := v, wait := 0 }]) :
    t.finishCycle.respValid = true ∧ t.finishCycle.r = v ∧ t.finishCycle.inFlight = [] := by
  simp [State.respond_due h]

/-- Settles O18: by the four kinds of cycle. -/
theorem zeroLatencyIsCombinational : Obligations.ZeroLatencyIsCombinational := by
  intro s hlat hempty
  cases hrst : s.port.rst with
  | true => exact ⟨_, step_of_reset hrst, by simp, by simp, by simp⟩
  | false =>
    cases hreq : s.port.reqValid with
    | false => exact ⟨_, step_of_idle hrst hreq, by simp [State.respond_empty hempty, hempty]⟩
    | true =>
      cases hd : decode s.port.req with
      | error e =>
        have hq : s.acceptReserved.inFlight = [{ answer := Config.freeWord s.draws, wait := 0 }] := by
          simp [hempty, hlat]
        obtain ⟨hvalid, -, hleft⟩ := finishCycle_of_only_due hq
        exact ⟨_, step_of_reserved hrst hreq hd, hvalid, hleft, by simp⟩
      | ok i =>
        have hq : (s.accept (result i)).inFlight = [{ answer := result i, wait := 0 }] := by
          simp [hempty, hlat]
        obtain ⟨hvalid, hr, hleft⟩ := finishCycle_of_only_due hq
        refine ⟨_, step_of_instr hrst hreq hd, hvalid, hleft, fun j v _ _ hj hv => ?_⟩
        cases hj
        rw [hr, answers_iff.mp hv]

end Sys2Proof.Machine
end

section
/-! The reversal ROM (R15, R21), and the proof of O21. The printed table is bit reversal of a byte; the bit formula and the
involution are those of `BitVec.reverse`. -/

namespace Sys2Proof.Machine

/-- R15: the sixteen rows of sixteen entries. -/
theorem rev8Rom_length : rev8Rom.length = 256 := by
  simp only [rev8Rom, List.length_append]
  rfl

/-- R21, entry by entry: the table is a constant, so this is the one fact here that is checked by looking at all of it. -/
theorem rev8_eq_reverse : ∀ i : Byte, rev8 i = i.reverse := by decide

theorem getLsbD_rev8 (i : Byte) {j : Nat} (hj : j < 8) : (rev8 i).getLsbD j = i.getLsbD (7 - j) := by
  rw [rev8_eq_reverse, BitVec.getLsbD_reverse, BitVec.getMsbD_eq_getLsbD]
  simp [hj]

@[simp] theorem rev8_rev8 (i : Byte) : rev8 (rev8 i) = i := by
  rw [rev8_eq_reverse, rev8_eq_reverse, BitVec.reverse_reverse_eq]

/-- Settles O21: by the length of the table and the two laws of bit reversal. -/
theorem romEntriesAreReversedIndices : Obligations.RomEntriesAreReversedIndices :=
  ⟨rev8Rom_length, fun i _ hj => getLsbD_rev8 i hj, rev8_rev8⟩

end Sys2Proof.Machine
end

section
/-! The order of the responses (R26), and the proof of O17.

A cycle without reset moves answers and loses none: what it puts out, followed by what it leaves in flight, is what was in
flight followed by the answer of the request it accepts. Along the driven cycles this gives the responses in order, and
when the host is silent afterwards, `LAT` cycles empty the queue. -/

namespace Sys2Proof.Machine

/-- `w` may answer the request `q`: it is the result of `q`'s instruction, or any word if the opcode is reserved (R35). -/
def IsAnswerOf (q : Request) (w : Word) : Prop := ∀ i, decode q = .ok i → w = result i

/-- The answers of the requests in flight, oldest first (R17). -/
def State.pending (s : State) : List Word := s.inFlight.map (·.answer)

/-- What the response port carried in the last cycle (R16). -/
def State.emitted (s : State) : List Word := if s.respValid then [s.r] else []

/-- One more cycle of responses: what the cycle puts out comes first. -/
theorem responses_succ_emitted {n : Nat} {s t : State} (h : step s = .next t) :
    responses (n + 1) s = t.emitted ++ responses n t := responses_succ h

/-- The end of a cycle drops no answer, makes none and keeps their order. -/
theorem State.emitted_append_pending_finishCycle (t : State) :
    t.finishCycle.emitted ++ t.finishCycle.pending = t.pending := by
  obtain ⟨e, rest, hq, -, hr⟩ | ⟨-, hr⟩ := t.respond_cases
  · simp [State.emitted, State.pending, hr, hq, Function.comp_def]
  · simp [State.emitted, State.pending, hr, Function.comp_def]

/-- A cycle without reset accepts an answer for each request on the port, of which there is one at most, behind those in
flight, and then ends. -/
theorem step_accepts_answers {s : State} (hrst : s.port.rst = false) :
    ∃ (t : State) (ws : List Word), step s = .next t.finishCycle ∧ t.drive = s.drive ∧
      t.pending = s.pending ++ ws ∧ List.Forall₂ IsAnswerOf (presented [s.port]) ws := by
  cases hreq : s.port.reqValid with
  | false => exact ⟨s, [], step_of_idle hrst hreq, rfl, by simp, by simp [hreq]⟩
  | true =>
    cases hd : decode s.port.req with
    | ok i =>
      exact ⟨_, [result i], step_of_instr hrst hreq hd, rfl, by simp [State.pending],
        by simp [hreq, IsAnswerOf, hd]⟩
    | error e =>
      exact ⟨_, [Config.freeWord s.draws], step_of_reserved hrst hreq hd, rfl, by simp [State.pending],
        by simp [hreq, IsAnswerOf, hd]⟩

/-- The whole of a cycle without reset: the host's next inputs, and where the answers are after it. -/
theorem step_moves_answers {s : State} (hrst : s.port.rst = false) :
    ∃ (t : State) (ws : List Word), step s = .next t ∧ t.port = s.drive.headD PortIn.idle ∧
      t.drive = s.drive.tail ∧ t.emitted ++ t.pending = s.pending ++ ws ∧
      List.Forall₂ IsAnswerOf (presented [s.port]) ws := by
  obtain ⟨t, ws, hstep, hdrive, hpend, hans⟩ := step_accepts_answers hrst
  exact ⟨_, ws, hstep, by simp [hdrive], by simp [hdrive],
    t.emitted_append_pending_finishCycle.trans hpend, hans⟩

/-- When the host is silent, the requests in flight are answered in order, in as many cycles as bound their waits. -/
theorem responses_of_silent_host (n : Nat) {s : State} (hform : RisingBelow n s.inFlight)
    (hport : s.port = PortIn.idle) (hdrive : s.drive = []) : responses n s = s.pending := by
  induction n generalizing s with
  | zero =>
    have hempty : s.inFlight = [] := List.length_eq_zero_iff.mp (Nat.le_zero.mp hform.length_le)
    simp [State.pending, hempty]
  | succ n ih =>
    have hstep : step s = .next s.finishCycle := step_of_idle (by rw [hport]; rfl) (by rw [hport]; rfl)
    calc responses (n + 1) s
        = s.finishCycle.emitted ++ responses n s.finishCycle := responses_succ_emitted hstep
      _ = s.finishCycle.emitted ++ s.finishCycle.pending := by
          rw [ih hform.finishCycle (by simp [hdrive]) (by simp [hdrive])]
      _ = s.pending := s.emitted_append_pending_finishCycle

/-- Over the driven cycles and `LAT` more, the responses are the answers that were in flight and then those of the
requests presented, in order (R26). By induction on what the host drives, over every state. -/
theorem responses_eq_pending_append {s : State} (hok : s.PipelineOk) (hnr : NoReset (s.port :: s.drive)) :
    ∃ ws, responses (1 + s.drive.length + s.lat) s = s.pending ++ ws ∧
      List.Forall₂ IsAnswerOf (presented (s.port :: s.drive)) ws := by
  induction hd : s.drive generalizing s with
  | nil =>
    obtain ⟨t, ws, hstep, hport, hdrive, hmoved, hans⟩ := step_moves_answers (hnr _ List.mem_cons_self)
    obtain ⟨hok', hlat⟩ := step_preserves_pipelineOk hok hstep
    rw [hd] at hport hdrive
    refine ⟨ws, ?_, hans⟩
    calc responses (1 + 0 + s.lat) s
        = t.emitted ++ responses t.lat t := by
          rw [hlat, Nat.add_zero, Nat.add_comm, responses_succ_emitted hstep]
      _ = t.emitted ++ t.pending := by rw [responses_of_silent_host t.lat hok' hport hdrive]
      _ = s.pending ++ ws := hmoved
  | cons p ps ih =>
    obtain ⟨t, ws, hstep, hport, hdrive, hmoved, hans⟩ := step_moves_answers (hnr _ List.mem_cons_self)
    obtain ⟨hok', hlat⟩ := step_preserves_pipelineOk hok hstep
    rw [hd] at hnr hport hdrive
    have hnr' : NoReset (t.port :: t.drive) := by
      rw [hport, hdrive]
      exact (List.forall_mem_cons.mp hnr).2
    obtain ⟨ws', hrest, hans'⟩ := ih hok' hnr' hdrive
    refine ⟨ws ++ ws', ?_, ?_⟩
    · calc responses (1 + (ps.length + 1) + s.lat) s
          = t.emitted ++ responses (1 + ps.length + t.lat) t := by
            rw [hlat, ← Nat.add_assoc, Nat.add_right_comm, responses_succ_emitted hstep]
        _ = (t.emitted ++ t.pending) ++ ws' := by rw [hrest, List.append_assoc]
        _ = s.pending ++ (ws ++ ws') := by rw [hmoved, List.append_assoc]
    · rw [hport] at hans'
      simpa using List.rel_append hans hans'

/-- The `k`-th of the answers of a list of requests answers the `k`-th request. -/
theorem getElem?_of_answers {qs : List Request} {ws : List Word} (h : List.Forall₂ IsAnswerOf qs ws) {k : Nat}
    {q : Request} (hq : qs[k]? = some q) : ∃ w, ws[k]? = some w ∧ IsAnswerOf q w := by
  obtain ⟨hk, rfl⟩ := List.getElem?_eq_some_iff.mp hq
  have hk' : k < ws.length := h.length_eq ▸ hk
  exact ⟨ws[k], List.getElem?_eq_getElem hk', h.get hk hk'⟩

/-- Settles O17: the responses are the answers in flight and then those of the requests presented. -/
theorem responsesFollowRequestOrder : Obligations.ResponsesFollowRequestOrder := by
  intro s hok hnr
  obtain ⟨ws, hresp, hans⟩ := responses_eq_pending_append hok hnr
  have hlen : s.pending.length = s.inFlight.length := List.length_map _
  rw [hresp]
  refine ⟨?_, fun k e he => ?_, fun k q i v hq hi hv => ?_⟩
  · rw [List.length_append, hlen, hans.length_eq]
  · have hpend : s.pending[k]? = some e.answer := by simp [State.pending, he]
    obtain ⟨hk, -⟩ := List.getElem?_eq_some_iff.mp hpend
    rw [List.getElem?_append_left hk, hpend]
  · obtain ⟨w, hw, hanswer⟩ := getElem?_of_answers hans hq
    rw [← hlen, List.getElem?_append_right (Nat.le_add_right _ _), Nat.add_sub_cancel_left, hw, hanswer i hi,
      answers_iff.mp hv]

end Sys2Proof.Machine
end

section
/-! Encode and decode (R30, R31): the packed form keeps every field, and the decoder is the inverse of the encoder up to
the fields a format ignores. The proofs of O1, O2, O3 and O4. -/

namespace Sys2Proof.Machine

/-- R30: the four fields of the packed form, read bit by bit, are those of the request. -/
@[simp] theorem ofVector_toVector (q : Request) : Request.ofVector q.toVector = q := by
  obtain ⟨op, a, b, c⟩ := q
  simp only [Request.ofVector, Request.toVector, Request.mk.injEq]
  refine ⟨?_, ?_, ?_, ?_⟩ <;> ext i hi <;> grind

/-- A packed request is a `REQ` vector, and stands for the request it was packed from. -/
theorem ofPacked_toVector (q : Request) : Request.ofPacked q.toVector.toNat = some q := by
  simp [Request.ofPacked, q.toVector.isLt]

/-- R31: the encoder writes the opcode that the decoder reads, and every operand of the instruction into the field it
is read from. -/
theorem decode_encode (i : Instr) : decode (encode i) = .ok i := by
  cases i <;> rfl

theorem encodePacked_lt (i : Instr) : encodePacked i < 2 ^ 101 := (encode i).toVector.isLt

theorem decodePacked_encodePacked (i : Instr) : decodePacked (encodePacked i) = .ok i := by
  rw [decodePacked, encodePacked, ofPacked_toVector]
  exact decode_encode i

/-- Settles O1: the 104 bits of a table word hold the 101 of a packed request. -/
theorem encodedInstructionDecodesBack : Obligations.EncodedInstructionDecodesBack := by
  intro i
  have hfits : encodePacked i % 2 ^ 104 = encodePacked i :=
    Nat.mod_eq_of_lt ((encodePacked_lt i).trans (by decide))
  refine ⟨encodePacked_lt i, ?_⟩
  rw [decodeTableWord, hfits, decodePacked_encodePacked]
  rfl

/-- The other direction, by the rows of R31: the encoder gives the request back, but for the fields its format
ignores. -/
theorem encode_of_decode_ok {q : Request} {i : Instr} (h : decode q = .ok i) : encode i = q.clearIgnored := by
  obtain ⟨op, a, b, c⟩ := q
  unfold decode at h
  split at h
  case h_20 => cases h
  all_goals
    next hop =>
      cases h
      subst hop
      rfl

/-- Settles O2: a well-formed request is one whose ignored fields are 0 already. -/
theorem decodedRequestEncodesToItsUsedFields : Obligations.DecodedRequestEncodesToItsUsedFields := by
  intro q i hi
  refine ⟨encode_of_decode_ok hi, fun hwf => ?_⟩
  obtain ⟨-, hzero⟩ : q.isDefined = true ∧ q.ignoredAreZero = true := by simpa [Request.wellFormed] using hwf
  rw [encode_of_decode_ok hi]
  exact eq_of_beq hzero

/-- Clearing ignored fields leaves the opcode. -/
@[simp] theorem clearIgnored_op (q : Request) : q.clearIgnored.op = q.op := by
  unfold Request.clearIgnored
  split <;> rfl

theorem encode_op_lt (i : Instr) : (encode i).op.toNat < 19 := by
  cases i <;> simp [encode]

theorem encode_op_of_decode_ok {q : Request} {i : Instr} (h : decode q = .ok i) : (encode i).op = q.op := by
  rw [encode_of_decode_ok h, clearIgnored_op]

theorem decode_error_eq {q : Request} {e : DecodeError} (h : decode q = .error e) : e = .reservedOpcode q.op := by
  unfold decode at h
  split at h <;> cases h
  rfl

/-- R35: an instruction has one of the nineteen opcodes, so a reserved opcode decodes to none. -/
theorem decode_of_reserved {q : Request} (hres : 19 ≤ q.op.toNat) : decode q = .error (.reservedOpcode q.op) := by
  cases h : decode q with
  | ok i =>
    have hlt := encode_op_lt i
    rw [encode_op_of_decode_ok h] at hlt
    omega
  | error e => rw [decode_error_eq h]

/-- Settles O3: by the two halves of the opcode space. -/
theorem decodingNeedsTheOpcodeAlone : Obligations.DecodingNeedsTheOpcodeAlone := by
  intro q
  refine ⟨fun hdef => ?_, decode_of_reserved⟩
  obtain ⟨i, hi⟩ := decode_ok_of_defined hdef
  exact ⟨i, hi, encode_op_of_decode_ok hi⟩

/-- Settles O4: five printed words, each evaluated. -/
theorem printedRequestsDecode : Obligations.PrintedRequestsDecode := by
  refine ⟨?_, ?_, ?_, ?_, ?_⟩ <;> decide

end Sys2Proof.Machine
end

section
/-! The bits of a request that have no effect (R30, R32, R33, R36), and the proof of O5. The result of a request is a
function of the bits that its opcode uses, and a cycle takes nothing else from the data lines. -/

namespace Sys2Proof.Machine

theorem ofBits_congr {f g : Nat → Bool} (h : ∀ i < 32, f i = g i) : ofBits f = ofBits g := by
  apply BitVec.eq_of_getLsbD_eq
  intro i hi
  rw [getLsbD_ofBits, getLsbD_ofBits, h i hi]

/-- A mask of `n` ones keeps the low `n` bits. -/
theorem getLsbD_and_lowMask (v : Word) {n i : Nat} (hi : i < n) (hi' : i < 32) :
    (v &&& BitVec.ofNat 32 (2 ^ n - 1)).getLsbD i = v.getLsbD i := by
  simp [BitVec.getLsbD_ofNat, Nat.testBit_two_pow_sub_one, hi, hi']

/-- R33: ILV2 reads the low 16 bits of its operands. -/
theorem ilv2Result_lowBits (a b : Word) : ilv2Result (a &&& 0xFFFF#32) (b &&& 0xFFFF#32) = ilv2Result a b := by
  refine ofBits_congr fun j hj => ?_
  have hlow (v : Word) : (v &&& 0xFFFF#32).getLsbD (j / 2) = v.getLsbD (j / 2) :=
    getLsbD_and_lowMask v (n := 16) (by omega) (by omega)
  rw [hlow, hlow]

/-- R33: ILV3 reads the low 10 bits of its operands. -/
theorem ilv3Result_lowBits (a b c : Word) :
    ilv3Result (a &&& 0x3FF#32) (b &&& 0x3FF#32) (c &&& 0x3FF#32) = ilv3Result a b c := by
  refine ofBits_congr fun j _ => ?_
  by_cases hj : j < 30
  · have hlow (v : Word) : (v &&& 0x3FF#32).getLsbD (j / 3) = v.getLsbD (j / 3) :=
      getLsbD_and_lowMask v (n := 10) (by omega) (by omega)
    rw [hlow, hlow, hlow]
  · simp [hj]

/-- R6: a shift amount is taken modulo 32, so its low five bits decide. -/
theorem shiftAmount_lowBits (n : Word) : shiftAmount (n &&& 0x1F#32) = shiftAmount n := by
  have hmask : (n &&& 0x1F#32).toNat = n.toNat % 32 := by
    rw [BitVec.toNat_and]
    exact Nat.and_two_pow_sub_one_eq_mod n.toNat 5
  rw [shiftAmount, hmask, Nat.mod_mod, shiftAmount]

theorem lsr_lowBits (v n : Word) : lsr v (n &&& 0x1F#32) = lsr v n := by
  rw [lsr, shiftAmount_lowBits, lsr]

/-- R33: of its selector DILV2 reads b[4:0]. -/
theorem dilv2Result_lowBits (a b : Word) : dilv2Result a (b &&& 0x1F#32) = dilv2Result a b := by
  rw [dilv2Result, lsr_lowBits, dilv2Result]

/-- R33: of its selector DILV3 reads b[4:0]. -/
theorem dilv3Result_lowBits (a b : Word) : dilv3Result a (b &&& 0x1F#32) = dilv3Result a b := by
  rw [dilv3Result, lsr_lowBits, dilv3Result]

/-- The mask of an operand that is used whole. -/
theorem and_wordMask (v : Word) : v &&& 0xFFFFFFFF#32 = v := BitVec.and_allOnes

theorem resultOfRequest_of_ok {q : Request} {i : Instr} (h : decode q = .ok i) :
    resultOfRequest q = some (result i) := by
  rw [resultOfRequest, h]
  rfl

theorem resultOfRequest_of_error {q : Request} {e : DecodeError} (h : decode q = .error e) :
    resultOfRequest q = none := by
  rw [resultOfRequest, h]
  rfl

@[simp] theorem usedOnly_op (q : Request) : q.usedOnly.op = q.op := rfl

/-- R30, R33, R36: the bits that an opcode does not use have no effect on the result, row by row of R31. -/
theorem resultOfRequest_usedOnly (q : Request) : resultOfRequest q.usedOnly = resultOfRequest q := by
  cases h : decode q with
  | error e =>
    have hres : 19 ≤ q.usedOnly.op.toNat := reserved_of_decode_error (q := q) h
    rw [resultOfRequest_of_error h, resultOfRequest_of_error (decode_of_reserved hres)]
  | ok i =>
    obtain ⟨op, a, b, c⟩ := q
    rw [resultOfRequest_of_ok h]
    unfold decode at h
    split at h
    case h_20 => cases h
    all_goals
      next hop =>
        cases h
        subst hop
        simp [resultOfRequest, decode, Request.usedOnly, Opcode.usedMasks, Except.toOption, result, and_wordMask,
          ilv2Result_lowBits, ilv3Result_lowBits, dilv2Result_lowBits, dilv3Result_lowBits]

/-- A cycle without reset that is presented `q` accepts the result of `q`, or a free value if `q` has none (R35). -/
theorem step_presenting (s : State) (q : Request) (hrst : s.port.rst = false) (hreq : s.port.reqValid = true) :
    step { s with port := { s.port with req := q } } =
      .next ((resultOfRequest q).elim s.acceptReserved s.accept).finishCycle := by
  cases hd : decode q with
  | ok i =>
    have hstep : step { s with port := { s.port with req := q } } = .next (State.finishCycle _) :=
      step_of_instr hrst hreq hd
    rw [hstep, resultOfRequest_of_ok hd]
    exact congrArg _ (State.finishCycle_of_port (s.accept (result i)) _)
  | error e =>
    have hstep : step { s with port := { s.port with req := q } } = .next (State.finishCycle _) :=
      step_of_reserved hrst hreq hd
    rw [hstep, resultOfRequest_of_error hd]
    exact congrArg _ (State.finishCycle_of_port s.acceptReserved _)

/-- Of the data lines a cycle takes the result of the request and nothing else (R9, R16). -/
theorem step_congr_request (s : State) {q q' : Request} (h : resultOfRequest q = resultOfRequest q') :
    step { s with port := { s.port with req := q } } = step { s with port := { s.port with req := q' } } := by
  cases hrst : s.port.rst with
  | true =>
    have hstep (p : Request) : step { s with port := { s.port with req := p } } = .next s.resetCycle :=
      step_of_reset hrst
    rw [hstep, hstep]
  | false =>
    cases hreq : s.port.reqValid with
    | true => rw [step_presenting s q hrst hreq, step_presenting s q' hrst hreq, h]
    | false =>
      have hstep (p : Request) : step { s with port := { s.port with req := p } } = .next s.finishCycle :=
        (idleCycleAcceptsNothing s p hrst hreq).2
      rw [hstep, hstep]

/-- Settles O5: requests that agree on the used bits have the same result. -/
theorem ignoredBitsHaveNoEffect : Obligations.IgnoredBitsHaveNoEffect := by
  intro s q q' hused
  apply step_congr_request
  rw [← resultOfRequest_usedOnly q, hused, resultOfRequest_usedOnly]

end Sys2Proof.Machine
end

section
/-! A request with a reserved opcode (R35), and the proof of O12: it waits in the queue like any other. -/

namespace Sys2Proof.Machine

/-- Settles O12: the free value enters the queue with `LAT` cycles to wait. -/
theorem reservedOpcodeIsAnsweredOnTime : Obligations.ReservedOpcodeIsAnsweredOnTime := by
  intro s hrst hreq hres
  have hstep : step s = .next s.acceptReserved.finishCycle := step_of_reserved hrst hreq (decode_of_reserved hres)
  refine ⟨hstep, fun hok hnr => ?_⟩
  have hform : RisingBelow (s.acceptReserved.lat + 1) s.acceptReserved.inFlight :=
    (pipelineOk_iff.mp hok).append_newest (Config.freeWord s.draws)
  rw [run_succ hstep]
  exact run_answers_after_wait s.lat hform (by simp) hnr

end Sys2Proof.Machine
end

section
/-! The assembler's lines (R37), and the proof of O55. One relation says what word an operand stands for, and one function
what request the words of a line fill; when a line assembles is said in terms of these two. -/

namespace Sys2Proof.Machine

/-- The word `w` is what the operand stands for: its own word, or the received result that it names (R37). -/
def IsValueOf (results : List Word) (o : Operand) (w : Word) : Prop :=
  o = .word w ∨ ∃ j, o = .resultOf j ∧ results[j]? = some w

/-- The request that up to three operand words fill in the order `a`, `b`, `c`, the other fields 0 (R37). -/
def requestOf (op : Opcode) (ws : List Word) : Request :=
  { op := op, a := ws.getD 0 0, b := ws.getD 1 0, c := ws.getD 2 0 }

theorem operandValue_eq_ok_iff {results : List Word} {o : Operand} {w : Word} :
    operandValue results o = .ok w ↔ IsValueOf results o w := by
  cases o with
  | word v => simp [operandValue, IsValueOf]
  | resultOf k => cases h : results[k]? <;> simp [operandValue, IsValueOf, h]

/-- Operands are read one by one, in order. -/
theorem mapM_operandValue_eq_ok_iff {results : List Word} {os : List Operand} {ws : List Word} :
    os.mapM (operandValue results) = .ok ws ↔ List.Forall₂ (IsValueOf results) os ws := by
  induction os generalizing ws with
  | nil => cases ws <;> simp [pure, Except.pure]
  | cons o os ih =>
    rw [List.mapM_cons, List.forall₂_cons_left_iff]
    simp only [← ih, ← operandValue_eq_ok_iff]
    cases operandValue results o with
    | error e => simp [bind, Except.bind]
    | ok w => cases os.mapM (operandValue results) <;> simp [bind, Except.bind, pure, Except.pure, eq_comm]

/-- When a line assembles, and to what (R37). -/
theorem assemble_eq_ok_iff {results : List Word} {line : Line} {q : Request} :
    assemble results line = .ok q ↔ ∃ f ws, line.op.format = some f ∧ line.operands.length = f.arity ∧
      List.Forall₂ (IsValueOf results) line.operands ws ∧ q = requestOf line.op ws := by
  unfold assemble
  cases line.op.format with
  | none => simp
  | some f =>
    by_cases hlen : line.operands.length = f.arity
    · simp only [← mapM_operandValue_eq_ok_iff]
      cases line.operands.mapM (operandValue results) <;> simp [hlen, requestOf, eq_comm]
    · simp [hlen]

/-- A line with another number of operands than its format's fields does not assemble (log 13: the error's name). -/
theorem assemble_of_length_ne {results : List Word} {line : Line} {f : Format} (hf : line.op.format = some f)
    (hlen : line.operands.length ≠ f.arity) : assemble results line = .error .operandCount := by
  simp [assemble, hf, hlen]

theorem format_arity_le (f : Format) : f.arity ≤ 3 := by
  cases f <;> decide

/-- The fields that the operands of a format leave are the ones it ignores (R30, R37). -/
theorem requestOf_wellFormed {op : Opcode} {f : Format} {ws : List Word} (hf : op.format = some f)
    (hlen : ws.length = f.arity) : (requestOf op ws).wellFormed = true := by
  have hzero (k : Nat) (hk : f.arity ≤ k) : ws.getD k 0 = 0 := List.getD_eq_default _ _ (hlen.trans_le hk)
  cases f with
  | U =>
    have hb := hzero 1 (by decide)
    have hc := hzero 2 (by decide)
    simp_all [requestOf, Request.wellFormed, Request.isDefined, Request.ignoredAreZero, Request.clearIgnored]
  | B | S =>
    have hc := hzero 2 (by decide)
    simp_all [requestOf, Request.wellFormed, Request.isDefined, Request.ignoredAreZero, Request.clearIgnored]
  | T => simp [requestOf, Request.wellFormed, Request.isDefined, Request.ignoredAreZero, Request.clearIgnored, hf]

/-- Up to three operand words stand in the fields in their order. -/
theorem requestOf_getElem? (op : Opcode) {ws : List Word} (hlen : ws.length ≤ 3) {k : Nat} {w : Word}
    (hw : ws[k]? = some w) : [(requestOf op ws).a, (requestOf op ws).b, (requestOf op ws).c][k]? = some w := by
  obtain ⟨hk, -⟩ := List.getElem?_eq_some_iff.mp hw
  match k with
  | 0 | 1 | 2 => simp [requestOf, hw]
  | k + 3 => omega

/-- The `k`-th members of two lists related member by member. -/
theorem getElem?_of_forall₂ {α β : Type} {R : α → β → Prop} {xs : List α} {ys : List β} (h : List.Forall₂ R xs ys)
    {k : Nat} {x : α} (hx : xs[k]? = some x) : ∃ y, ys[k]? = some y ∧ R x y := by
  obtain ⟨hk, rfl⟩ := List.getElem?_eq_some_iff.mp hx
  have hk' : k < ys.length := h.length_eq ▸ hk
  exact ⟨ys[k], List.getElem?_eq_getElem hk', h.get hk hk'⟩

/-- An operand that names no result, or one that has been received, has a value. -/
theorem exists_isValueOf {results : List Word} {o : Operand} (hrecv : ∀ j, o = .resultOf j → j < results.length) :
    ∃ w, IsValueOf results o w := by
  cases o with
  | word w => exact ⟨w, .inl rfl⟩
  | resultOf j => exact ⟨_, .inr ⟨j, rfl, List.getElem?_eq_getElem (hrecv j rfl)⟩⟩

theorem exists_forall₂_isValueOf {results : List Word} {os : List Operand}
    (hrecv : ∀ j, .resultOf j ∈ os → j < results.length) : ∃ ws, List.Forall₂ (IsValueOf results) os ws := by
  induction os with
  | nil => exact ⟨[], .nil⟩
  | cons o os ih =>
    obtain ⟨w, hw⟩ := exists_isValueOf (o := o) fun j ho => hrecv j (ho ▸ List.mem_cons_self)
    obtain ⟨ws, hws⟩ := ih fun j hj => hrecv j (List.mem_cons_of_mem o hj)
    exact ⟨w :: ws, .cons hw hws⟩

/-- Settles O55: what a line that assembles has been filled from, and which lines assemble. -/
theorem assembledLineIsAWellFormedRequest : Obligations.AssembledLineIsAWellFormedRequest := by
  refine ⟨fun results line q hq => ?_, fun results line f hf => ⟨fun hlen hrecv => ?_, assemble_of_length_ne hf⟩⟩
  · obtain ⟨f, ws, hf, hlen, hvals, rfl⟩ := assemble_eq_ok_iff.mp hq
    have hlen' : ws.length = f.arity := hvals.length_eq.symm.trans hlen
    refine ⟨requestOf_wellFormed hf hlen', rfl, ⟨f, hf, hlen⟩, fun k o ho => ?_⟩
    obtain ⟨w, hw, hval⟩ := getElem?_of_forall₂ hvals ho
    exact ⟨w, requestOf_getElem? _ (hlen'.trans_le (format_arity_le f)) hw, hval⟩
  · obtain ⟨ws, hvals⟩ := exists_forall₂_isValueOf hrecv
    exact ⟨_, assemble_eq_ok_iff.mpr ⟨f, ws, hf, hlen, hvals, rfl⟩⟩

end Sys2Proof.Machine
end

section
/-! Request streams (R26, R37, R73), and the proof of O56. The host resolves a stream line by line to requests that have
a result each; a request that has one is answered with it and nothing else, so the order of the responses (O17) gives the
responses themselves. -/

namespace Sys2Proof.Machine

/-- The result of a request is `w`: the opcode is defined, and `w` is its value (R9). -/
def HasResult (q : Request) (w : Word) : Prop := resultOfRequest q = some w

/-- A stream is resolved from its first line on, each result joining those that later lines may name (R37). -/
theorem streamResults_cons_eq_ok_iff {done : List Word} {line : Line} {rest : List Line} {results : List Word} :
    streamResults done (line :: rest) = .ok results ↔ ∃ q w, assemble done line = .ok q ∧ HasResult q w ∧
      streamResults (done ++ [w]) rest = .ok results := by
  rw [streamResults]
  cases assemble done line with
  | error e => simp
  | ok q => cases h : resultOfRequest q <;> simp [HasResult, h]

/-- The requests and results of a stream: line `k` assembles, given the `k` results before it, to request `k`, and
result `k` is that request's. -/
theorem requests_of_streamResults {lines : List Line} {done results : List Word}
    (h : streamResults done lines = .ok results) :
    ∃ qs ws, results = done ++ ws ∧ qs.length = lines.length ∧ List.Forall₂ HasResult qs ws ∧
      ∀ (k : Nat) (line : Line), lines[k]? = some line →
        ∃ q, qs[k]? = some q ∧ assemble (done ++ ws.take k) line = .ok q := by
  induction lines generalizing done with
  | nil =>
    cases h
    exact ⟨[], [], by simp, rfl, .nil, by simp⟩
  | cons line rest ih =>
    obtain ⟨q, w, hq, hw, hrest⟩ := streamResults_cons_eq_ok_iff.mp h
    obtain ⟨qs, ws, hresults, hlen, hres, hlines⟩ := ih hrest
    refine ⟨q :: qs, w :: ws, by simp [hresults], by simp [hlen], .cons hw hres, fun k l hl => ?_⟩
    cases k with
    | zero =>
      cases hl
      exact ⟨q, rfl, by simpa using hq⟩
    | succ k =>
      obtain ⟨q', hq', hasm⟩ := hlines k l hl
      exact ⟨q', hq', by simpa using hasm⟩

/-- A request with a result has no other answer. -/
theorem IsAnswerOf.eq_result {q : Request} {v w : Word} (hv : IsAnswerOf q v) (hw : HasResult q w) : v = w := by
  cases hd : decode q with
  | ok i => rw [hv i hd, ← Option.some.injEq, ← hw, resultOfRequest_of_ok hd]
  | error e =>
    rw [HasResult, resultOfRequest_of_error hd] at hw
    cases hw

theorem answers_eq_results {qs : List Request} {vs ws : List Word} (hvs : List.Forall₂ IsAnswerOf qs vs)
    (hws : List.Forall₂ HasResult qs ws) : vs = ws := by
  induction hvs generalizing ws with
  | nil => cases hws; rfl
  | cons hv _ ih =>
    cases hws with
    | cons hw hws => rw [hv.eq_result hw, ih hws]

/-- From an empty pipeline, requests that have results are answered with them, in order, for every `LAT` (R26). -/
theorem responses_eq_results {s : State} {ws : List Word} (hempty : s.inFlight = [])
    (hnr : NoReset (s.port :: s.drive)) (hres : List.Forall₂ HasResult (presented (s.port :: s.drive)) ws) :
    responses (1 + s.drive.length + s.lat) s = ws := by
  have hok : s.PipelineOk := by simp [State.PipelineOk, hempty]
  obtain ⟨vs, hresp, hans⟩ := responses_eq_pending_append hok hnr
  rw [hresp, answers_eq_results hans hres]
  simp [State.pending, hempty]

/-- Settles O56: the host's results are the results of the requests it presents. -/
theorem blockAnswersAStreamWithItsResults : Obligations.BlockAnswersAStreamWithItsResults := by
  intro lines results h
  obtain ⟨qs, ws, hresults, hlen, hres, hlines⟩ := requests_of_streamResults h
  obtain rfl : results = ws := hresults
  refine ⟨hres.length_eq.symm.trans hlen, qs, hlen, hlines, fun s hempty hnr hqs => ?_⟩
  exact responses_eq_results hempty hnr (hqs ▸ hres)

end Sys2Proof.Machine
end

section
/-! The selector family (R40 to R44): one law per case of each result, and the proofs of O22 to O26. -/

namespace Sys2Proof.Machine

/-- Every instruction completes from every state, with its result (R16). -/
theorem answers_result (i : Instr) (s : State) : Answers i s (result i) := answers_iff.mpr rfl

/-! BCOMPL (R40) -/

theorem getLsbD_bcomplResult (a : Word) {i : Nat} (hi : i < 32) : (bcomplResult a).getLsbD i = !a.getLsbD i := by
  simp [bcomplResult, hi]

@[simp] theorem bcomplResult_bcomplResult (a : Word) : bcomplResult (bcomplResult a) = a := BitVec.not_not

/-- Settles O22: the bit law, and BCOMPL's being its own inverse. -/
theorem bcomplInvertsEveryBit : Obligations.BcomplInvertsEveryBit :=
  fun a _ _ s => ⟨rfl, bcomplResult a, answers_result _ s, fun _ => getLsbD_bcomplResult a,
    answers_iff.mpr (bcomplResult_bcomplResult a).symm⟩

/-! SIGN (R41) -/

theorem signResult_of_pos {a : Word} (h : 0 < a.toInt) : signResult a = 1 := if_pos h

theorem signResult_of_neg {a : Word} (h : a.toInt < 0) : signResult a = 0xFFFFFFFF :=
  (if_neg h.not_gt).trans (if_pos h)

theorem signResult_zero : signResult 0 = 0 := rfl

/-- Settles O23: by the three cases of the sign. -/
theorem signGivesTheSign : Obligations.SignGivesTheSign :=
  fun a _ _ s => ⟨rfl, signResult a, answers_result _ s, signResult_of_pos, signResult_of_neg,
    fun h => h ▸ signResult_zero⟩

/-! ABS (R42) -/

theorem absResult_of_bit31_clear {a : Word} (h : a.getLsbD 31 = false) : absResult a = a := by
  rw [absResult, h, if_neg Bool.false_ne_true]

theorem absResult_of_bit31_set {a : Word} (h : a.getLsbD 31 = true) : absResult a = 0 - a :=
  (if_pos h).trans (BitVec.zero_sub a).symm

/-- Bit 31 is the sign bit, so R42's definition is the library's absolute value of a bit vector. -/
theorem absResult_eq_abs (a : Word) : absResult a = a.abs := by
  rw [absResult, BitVec.abs_eq, BitVec.msb_eq_getLsbD_last]

/-- INT_MIN (R3) is the one word whose negation does not negate its signed value. -/
theorem intMin_eq : (0x80000000 : Word) = BitVec.intMin 32 := rfl

theorem toInt_absResult {a : Word} (h : a ≠ 0x80000000) : (absResult a).toInt = |a.toInt| := by
  rw [absResult_eq_abs, BitVec.toInt_abs_eq_natAbs_of_ne_intMin (intMin_eq ▸ h), Int.natCast_natAbs]

/-- D12: the absolute value of INT_MIN has no word, and the negation wraps. -/
theorem absResult_intMin : absResult 0x80000000 = 0x80000000 := by
  rw [absResult_eq_abs, intMin_eq, BitVec.abs_intMin]

/-- Settles O24: by the two cases of bit 31, and the signed value in and out of range. -/
theorem absGivesTheAbsoluteValue : Obligations.AbsGivesTheAbsoluteValue :=
  fun a _ _ s => ⟨rfl, absResult a, answers_result _ s, absResult_of_bit31_clear, absResult_of_bit31_set,
    toInt_absResult, fun h => h ▸ absResult_intMin⟩

/-! MIN and MAX (R43, R44), by the same comparison -/

section
variable {a b : Word}

theorem minResult_of_lt (h : a.toInt < b.toInt) : minResult a b = a := if_pos (decide_eq_true h)

theorem minResult_of_le (h : b.toInt ≤ a.toInt) : minResult a b = b := by
  simp [minResult, signedLt, h]

theorem maxResult_of_lt (h : a.toInt < b.toInt) : maxResult a b = b := if_pos (decide_eq_true h)

theorem maxResult_of_le (h : b.toInt ≤ a.toInt) : maxResult a b = a := by
  simp [maxResult, signedLt, h]

end

/-- Operands that neither order separates have the same signed value, so they are the same word. -/
theorem minResult_comm (a b : Word) : minResult a b = minResult b a := by
  obtain hlt | heq | hgt := lt_trichotomy a.toInt b.toInt
  · rw [minResult_of_lt hlt, minResult_of_le hlt.le]
  · rw [BitVec.eq_of_toInt_eq heq]
  · rw [minResult_of_le hgt.le, minResult_of_lt hgt]

/-- MIN and MAX choose different operands. -/
theorem minResult_maxResult_cases (a b : Word) :
    (minResult a b = a ∧ maxResult a b = b) ∨ (minResult a b = b ∧ maxResult a b = a) := by
  obtain hlt | hle := lt_or_ge a.toInt b.toInt
  · exact .inl ⟨minResult_of_lt hlt, maxResult_of_lt hlt⟩
  · exact .inr ⟨minResult_of_le hle, maxResult_of_le hle⟩

theorem minResult_eq_maxResult_iff {a b : Word} : minResult a b = maxResult a b ↔ a = b := by
  obtain ⟨hmin, hmax⟩ | ⟨hmin, hmax⟩ := minResult_maxResult_cases a b
  · rw [hmin, hmax]
  · rw [hmin, hmax, eq_comm]

/-- Settles O25: by the two cases of the comparison, and commutativity. -/
theorem minGivesTheSignedMinimum : Obligations.MinGivesTheSignedMinimum :=
  fun a b _ s => ⟨rfl, minResult a b, answers_result _ s, minResult_of_lt, minResult_of_le,
    answers_iff.mpr (minResult_comm a b)⟩

/-- Settles O26: by the two cases of the comparison, in which MIN takes the operand that MAX leaves. -/
theorem maxGivesTheSignedMaximum : Obligations.MaxGivesTheSignedMaximum :=
  fun a b _ s => ⟨rfl, maxResult a b, minResult a b, answers_result _ s, answers_result _ s, maxResult_of_lt,
    maxResult_of_le, minResult_maxResult_cases a b, minResult_eq_maxResult_iff⟩

end Sys2Proof.Machine
end

section
/-! The power-of-two test and the logarithms (R45 to R47): each result said once, and the proofs of O27 to O29. Both
logarithms are the library's `Nat.log`: of the word for LOG2, of the signed value cut off below 0 for LOG10. -/

namespace Sys2Proof.Machine

/-! ISPOW2 (R45) -/

/-- ISPOW2, said once: the truth value of the printed formula. -/
theorem ispow2Result_eq_ite (a : Word) : ispow2Result a = if a ≠ 0 ∧ a &&& (a - 1) = 0 then 1 else 0 := by
  simp only [ispow2Result, boolWord, Bool.and_eq_true, bne_iff_ne, beq_iff_eq]
  rfl

theorem ispow2Result_of_formula {a : Word} (h : a ≠ 0 ∧ a &&& (a - 1) = 0) : ispow2Result a = 1 :=
  (ispow2Result_eq_ite a).trans (if_pos h)

theorem ispow2Result_of_not_formula {a : Word} (h : a = 0 ∨ a &&& (a - 1) ≠ 0) : ispow2Result a = 0 :=
  (ispow2Result_eq_ite a).trans (if_neg fun ⟨hne, hand⟩ => h.elim hne (· hand))

/-- D25: INT_MIN meets the formula, its decrement wrapping to the word of all the other bits. -/
theorem ispow2Result_intMin : ispow2Result 0x80000000 = 1 := ispow2Result_of_formula (by decide)

/-- Settles O27: by the two cases of the formula, INT_MIN being in the first. -/
theorem ispow2FollowsThePrintedFormula : Obligations.Ispow2FollowsThePrintedFormula :=
  fun a _ _ s => ⟨rfl, ispow2Result a, answers_result _ s, ispow2Result_of_formula, ispow2Result_of_not_formula,
    fun h => h ▸ ispow2Result_intMin⟩

/-! LOG2 (R46) -/

/-- The highest set bit bounds the word on both sides: it is set, and no bit above it is. -/
theorem pow_bounds_of_highestSet {a : Word} {k : Nat} (h : highestSet a = some k) :
    2 ^ k ≤ a.toNat ∧ a.toNat < 2 ^ (k + 1) := by
  obtain ⟨_, hset, habove⟩ := highestSet_eq_some.mp h
  refine ⟨Nat.ge_two_pow_of_testBit hset, Nat.lt_pow_two_of_testBit _ fun j hj => ?_⟩
  obtain hlt | hge := Nat.lt_or_ge j 32
  · exact habove j hj hlt
  · exact BitVec.getLsbD_of_ge a j hge

theorem log_two_toNat_lt (a : Word) : Nat.log 2 a.toNat < 32 := Nat.log_lt_of_lt_pow' (by decide) a.isLt

/-- The index of the highest set bit, 0 for the word 0, is the binary logarithm. -/
theorem highestSet_getD_zero (a : Word) : (highestSet a).getD 0 = Nat.log 2 a.toNat := by
  cases h : highestSet a with
  | none =>
    obtain rfl := highestSet_eq_none.mp h
    rfl
  | some k =>
    obtain ⟨hle, hlt⟩ := pow_bounds_of_highestSet h
    exact (Nat.log_eq_of_pow_le_of_lt_pow hle hlt).symm

/-- LOG2, said once; the library's logarithm of 0 is 0, as D11 has it. -/
theorem toNat_log2Result (a : Word) : (log2Result a).toNat = Nat.log 2 a.toNat := by
  rw [log2Result, highestSet_getD_zero, BitVec.toNat_ofNat]
  exact Nat.mod_eq_of_lt ((log_two_toNat_lt a).trans (by decide))

theorem log2Result_zero : log2Result 0 = 0 := rfl

/-- Settles O28: LOG2 is the binary logarithm, of which the library has the two bounds. -/
theorem log2GivesTheFloorLogarithm : Obligations.Log2GivesTheFloorLogarithm := by
  refine fun a _ _ s => ⟨rfl, log2Result a, answers_result _ s, fun h => h ▸ log2Result_zero, fun hne => ?_⟩
  have hpos : a.toNat ≠ 0 := fun h => hne (BitVec.eq_of_toNat_eq h)
  rw [toNat_log2Result]
  exact ⟨log_two_toNat_lt a, Nat.pow_log_le_self 2 hpos, Nat.lt_pow_succ_log_self (by decide) _⟩

/-! LOG10 (R47) -/

/-- A threshold of R47, a power of ten above 1, is reached exactly when the decimal logarithm reaches its exponent: a
signed value below 1 reaches none, and the library's logarithm of 0 is 0. -/
theorem ten_pow_le_toInt_iff (a : Word) {k : Nat} (hk : 1 ≤ k) :
    (10 : Int) ^ k ≤ a.toInt ↔ k ≤ Nat.log 10 a.toInt.toNat := by
  have hpos : (0 : Int) < 10 ^ k := by positivity
  obtain hneg | hge := lt_or_ge a.toInt 1
  · rw [show a.toInt.toNat = 0 by omega, Nat.log_zero_right]
    omega
  · rw [Nat.le_log_iff_pow_le (by decide) (by omega), Int.le_toNat (by omega)]
    norm_cast

/-- No signed value reaches 10^10 (R3). -/
theorem log_ten_toInt_le (a : Word) : Nat.log 10 a.toInt.toNat ≤ 9 := by
  have hlt : a.toInt < 2 ^ 31 := BitVec.toInt_lt
  exact Nat.le_of_lt_succ (Nat.log_lt_of_lt_pow' (by decide) (by omega))

/-- The exponents of R47's thresholds. -/
def thresholdExponents : List Nat := [1, 2, 3, 4, 5, 6, 7, 8, 9]

theorem log10Result_eq_countP (a : Word) :
    log10Result a = BitVec.ofNat 32 (thresholdExponents.countP fun k => decide ((10 : Int) ^ k ≤ a.toInt)) := rfl

/-- The exponents of R47 up to `d` are `d` in number. -/
theorem countP_thresholdExponents_le :
    ∀ d < 10, thresholdExponents.countP (fun k => decide (k ≤ d)) = d := by decide

theorem one_le_of_mem_thresholdExponents : ∀ k ∈ thresholdExponents, 1 ≤ k := by decide

theorem countP_ten_pow_le_toInt (a : Word) :
    thresholdExponents.countP (fun k => decide ((10 : Int) ^ k ≤ a.toInt)) = Nat.log 10 a.toInt.toNat := by
  have hcongr : ∀ k ∈ thresholdExponents,
      decide ((10 : Int) ^ k ≤ a.toInt) = true ↔ decide (k ≤ Nat.log 10 a.toInt.toNat) = true := by
    intro k hk
    have hone : 1 ≤ k := one_le_of_mem_thresholdExponents k hk
    rw [decide_eq_true_iff, decide_eq_true_iff, ten_pow_le_toInt_iff a hone]
  rw [List.countP_congr hcongr]
  exact countP_thresholdExponents_le _ (Nat.lt_succ_of_le (log_ten_toInt_le a))

/-- LOG10, said once. -/
theorem toNat_log10Result (a : Word) : (log10Result a).toNat = Nat.log 10 a.toInt.toNat := by
  rw [log10Result_eq_countP, countP_ten_pow_le_toInt, BitVec.toNat_ofNat]
  exact Nat.mod_eq_of_lt ((log_ten_toInt_le a).trans_lt (by decide))

/-- A word that is positive as a signed value is the same number unsigned. -/
theorem toNat_toInt_of_pos {a : Word} (h : 1 ≤ a.toInt) : a.toInt.toNat = a.toNat := by
  rw [BitVec.toInt_eq_toNat_cond] at *
  split at * <;> omega

theorem log10Result_of_lt_one {a : Word} (h : a.toInt < 1) : log10Result a = 0 := by
  apply BitVec.eq_of_toNat_eq
  rw [toNat_log10Result, show a.toInt.toNat = 0 by omega]
  rfl

/-- Settles O29: LOG10 is the decimal logarithm of the signed value cut off below 0, which reaches an exponent exactly
when the operand reaches its power of ten. -/
theorem log10CountsTheThresholdsReached : Obligations.Log10CountsTheThresholdsReached := by
  refine fun a _ _ s => ⟨rfl, log10Result a, answers_result _ s, ?_, fun k hk _ => ?_, fun h => ?_,
    log10Result_of_lt_one⟩
  · rw [toNat_log10Result]
    exact log_ten_toInt_le a
  · rw [toNat_log10Result, ten_pow_le_toInt_iff a hk]
  · rw [toNat_log10Result, toNat_toInt_of_pos h]

end Sys2Proof.Machine
end

section
/-! The two counts (R48, R49): POPCNT as the size of the set of set bits, CTZ by the two cases of the lowest set bit; the
proofs of O30 and O31. -/

namespace Sys2Proof.Machine

/-! POPCNT (R48) -/

/-- The indices of the set bits of a word, as R48 counts them. -/
def setBits (a : Word) : Finset (Fin 32) := Finset.univ.filter fun i => a.getLsbD i = true

@[simp] theorem mem_setBits {a : Word} {i : Fin 32} : i ∈ setBits a ↔ a.getLsbD i = true := by simp [setBits]

theorem popc_eq_card_setBits (a : Word) : popc a = (setBits a).card :=
  calc popc a
      = ∑ i ∈ Finset.range 32, (a.getLsbD i).toNat := rfl
    _ = ∑ i : Fin 32, (a.getLsbD i).toNat := Finset.sum_range _
    _ = ∑ i : Fin 32, if a.getLsbD i = true then 1 else 0 := Finset.sum_congr rfl fun _ _ => Bool.cond_eq_ite ..
    _ = (setBits a).card := (Finset.card_filter _ _).symm

/-- The complement sets the bits that the word leaves clear. -/
theorem setBits_not (a : Word) : setBits (~~~a) = (setBits a)ᶜ := by
  ext i
  simp

theorem popc_le (a : Word) : popc a ≤ 32 := by
  rw [popc_eq_card_setBits]
  exact card_finset_fin_le _

theorem popc_not (a : Word) : popc (~~~a) = 32 - popc a := by
  rw [popc_eq_card_setBits, popc_eq_card_setBits, setBits_not, Finset.card_compl, Fintype.card_fin]

/-- POPCNT, said once: a count of at most 32 fits the word. -/
theorem toNat_popcntResult (a : Word) : (popcntResult a).toNat = popc a := by
  rw [popcntResult, BitVec.toNat_ofNat]
  exact Nat.mod_eq_of_lt ((popc_le a).trans_lt (by decide))

/-- Settles O30: the count is the size of the set of set bits, and the complement has the complementary set. -/
theorem popcntCountsTheSetBits : Obligations.PopcntCountsTheSetBits := by
  refine fun a _ _ s => ⟨rfl, popcntResult a, answers_result _ s, ?_, popcntResult (~~~a), answers_result _ s, ?_⟩
  · exact (toNat_popcntResult a).trans (popc_eq_card_setBits a)
  · rw [toNat_popcntResult, toNat_popcntResult, popc_not]

/-! CTZ (R49) -/

theorem ctzResult_zero : ctzResult 0 = 32 := rfl

theorem exists_lowestSet {a : Word} (h : a ≠ 0) : ∃ k, lowestSet a = some k :=
  Option.ne_none_iff_exists'.mp (mt lowestSet_eq_none.mp h)

theorem toNat_ctzResult_of_lowestSet {a : Word} {k : Nat} (h : lowestSet a = some k) : (ctzResult a).toNat = k := by
  obtain ⟨hlt, -, -⟩ := lowestSet_eq_some.mp h
  rw [ctzResult, h, Option.getD_some, BitVec.toNat_ofNat]
  exact Nat.mod_eq_of_lt (hlt.trans (by decide))

/-- CTZ of a word that is not 0 is the index of its lowest set bit. -/
theorem ctzResult_of_ne_zero {a : Word} (h : a ≠ 0) :
    (ctzResult a).toNat < 32 ∧ a.getLsbD (ctzResult a).toNat = true ∧
      ∀ j < (ctzResult a).toNat, a.getLsbD j = false := by
  obtain ⟨k, hk⟩ := exists_lowestSet h
  rw [toNat_ctzResult_of_lowestSet hk]
  exact lowestSet_eq_some.mp hk

/-- Settles O31: by the two cases of the search for the lowest set bit. -/
theorem ctzFindsTheLowestSetBit : Obligations.CtzFindsTheLowestSetBit :=
  fun a _ _ s => ⟨rfl, ctzResult a, answers_result _ s, fun h => h ▸ ctzResult_zero, ctzResult_of_ne_zero⟩

end Sys2Proof.Machine
end

section
/-! Rounding to a power of two (R50, R51): the cascade said once bit by bit, each result said once as a power of two
whose exponent is the library's logarithm (rounded up for NEXTPOW2, down for PREVPOW2), and the proofs of O32 and O33. -/

namespace Sys2Proof.Machine

/-! The cascade of 43_pow2_round.md -/

/-- `w` holds at each place the disjunction of `n` consecutive bits of `v`, from that place upwards. -/
def HoldsWindows (n : Nat) (v w : Word) : Prop := ∀ i, w.getLsbD i = true ↔ ∃ j < n, v.getLsbD (i + j) = true

theorem holdsWindows_one (v : Word) : HoldsWindows 1 v v := by
  simp [HoldsWindows]

/-- The step by `n` joins each window of `n` bits to the one just above it. -/
theorem HoldsWindows.fillStep {n : Nat} {v w : Word} (h : HoldsWindows n v w) :
    HoldsWindows (n + n) v (fillStep n w) := by
  intro i
  rw [getLsbD_fillStep, Bool.or_eq_true, h i, h (n + i)]
  constructor
  · rintro (⟨j, hj, hbit⟩ | ⟨j, hj, hbit⟩)
    · exact ⟨j, by omega, hbit⟩
    · exact ⟨n + j, by omega, by rwa [Nat.add_left_comm, ← Nat.add_assoc]⟩
  · rintro ⟨j, hj, hbit⟩
    obtain hlt | hge := Nat.lt_or_ge j n
    · exact .inl ⟨j, hlt, hbit⟩
    · exact .inr ⟨j - n, by omega, by rwa [show n + i + (j - n) = i + j by omega]⟩

/-- The windows double from 1 to the width of the word. -/
theorem holdsWindows_fill (v : Word) : HoldsWindows 32 v (fill v) :=
  (holdsWindows_one v).fillStep.fillStep.fillStep.fillStep.fillStep

/-- The cascade, said once: it sets the bits whose weight the word reaches. -/
theorem getLsbD_fill (v : Word) (i : Nat) : (fill v).getLsbD i = true ↔ 2 ^ i ≤ v.toNat := by
  rw [holdsWindows_fill v i]
  constructor
  · rintro ⟨j, -, hbit⟩
    exact (Nat.pow_le_pow_right two_pos (Nat.le_add_right i j)).trans (Nat.ge_two_pow_of_testBit hbit)
  · intro hle
    obtain ⟨k, hk, hbit⟩ := Nat.exists_ge_and_testBit_of_ge_two_pow hle
    have hlt : k < 32 := BitVec.lt_of_getLsbD hbit
    exact ⟨k - i, by omega, by rwa [Nat.add_sub_cancel' hk]⟩

/-- The cascade gives one less than the least power of two above the word. -/
theorem toNat_fill (v : Word) : (fill v).toNat = 2 ^ Nat.clog 2 (v.toNat + 1) - 1 := by
  apply Nat.eq_of_testBit_eq
  intro i
  rw [Nat.testBit_two_pow_sub_one, Bool.eq_iff_iff, decide_eq_true_iff, Nat.lt_clog_iff_pow_lt Nat.one_lt_two,
    Nat.lt_succ_iff]
  exact getLsbD_fill v i

/-! NEXTPOW2 (R50) -/

/-- The decrement after the zero case (D23) does not wrap, and the increment after the cascade undoes it. -/
theorem toNat_decrement_add_one {a : Word} (h : a ≠ 0) : (a - 1).toNat + 1 = a.toNat := by
  bv_omega

theorem nextpow2Result_zero : nextpow2Result 0 = 1 := by decide

/-- NEXTPOW2, said once: the least power of two not below the word, wrapping; the library's logarithm of 0 is 0. -/
theorem toNat_nextpow2Result (a : Word) : (nextpow2Result a).toNat = 2 ^ Nat.clog 2 a.toNat % 2 ^ 32 := by
  obtain rfl | hne := eq_or_ne a 0
  · rw [nextpow2Result_zero]
    rfl
  · have hpos : 0 < 2 ^ Nat.clog 2 a.toNat := Nat.two_pow_pos _
    rw [nextpow2Result, if_neg hne, BitVec.toNat_add, toNat_fill, toNat_decrement_add_one hne]
    exact congrArg (· % 2 ^ 32) (Nat.sub_add_cancel hpos)

/-- The exponent `k + 1` is that of the words above `2^k` and up to `2^(k+1)`. -/
theorem clog_two_eq_succ {n k : Nat} (hlt : 2 ^ k < n) (hle : n ≤ 2 ^ (k + 1)) : Nat.clog 2 n = k + 1 :=
  Nat.le_antisymm (Nat.clog_le_of_le_pow hle) ((Nat.lt_clog_iff_pow_lt Nat.one_lt_two).mpr hlt)

theorem nextpow2Result_of_le_pow_30 {a : Word} (h : a.toNat ≤ 2 ^ 30) :
    Nat.clog 2 a.toNat ≤ 30 ∧ (nextpow2Result a).toNat = 2 ^ Nat.clog 2 a.toNat := by
  have hle : Nat.clog 2 a.toNat ≤ 30 := Nat.clog_le_of_le_pow h
  refine ⟨hle, ?_⟩
  rw [toNat_nextpow2Result]
  exact Nat.mod_eq_of_lt (Nat.pow_lt_pow_right Nat.one_lt_two (by omega))

/-- The table of R50 above `2^30`: the power `2^31` is INT_MIN as a signed value. -/
theorem nextpow2Result_of_le_pow_31 {a : Word} (hlt : 2 ^ 30 < a.toNat) (hle : a.toNat ≤ 2 ^ 31) :
    nextpow2Result a = 0x80000000 := by
  apply BitVec.eq_of_toNat_eq
  rw [toNat_nextpow2Result, clog_two_eq_succ hlt hle]
  rfl

/-- The table of R50 above `2^31`: the power `2^32` wraps to 0. -/
theorem nextpow2Result_of_pow_31_lt {a : Word} (hlt : 2 ^ 31 < a.toNat) : nextpow2Result a = 0 := by
  apply BitVec.eq_of_toNat_eq
  rw [toNat_nextpow2Result, clog_two_eq_succ hlt a.isLt.le]
  rfl

/-- Settles O32: the exponent is the least one whose power reaches the word, and the table's cases are those of this
exponent. -/
theorem nextpow2RoundsUp : Obligations.Nextpow2RoundsUp := by
  refine fun a _ _ s => ⟨rfl, nextpow2Result a, answers_result _ s, rfl, fun h => h ▸ nextpow2Result_zero,
    fun _ hle => ?_, nextpow2Result_of_le_pow_31, nextpow2Result_of_pow_31_lt⟩
  obtain ⟨hk, hpow⟩ := nextpow2Result_of_le_pow_30 hle
  exact ⟨Nat.clog 2 a.toNat, hk, hpow, Nat.le_pow_clog Nat.one_lt_two _, fun _ => Nat.clog_le_of_le_pow⟩

/-! PREVPOW2 (R51) -/

theorem prevpow2Result_zero : prevpow2Result 0 = 0 := by decide

/-- PREVPOW2, said once, on the words that have a highest set bit. -/
theorem toNat_prevpow2Result {a : Word} (h : a ≠ 0) : (prevpow2Result a).toNat = 2 ^ Nat.log 2 a.toNat := by
  obtain ⟨k, hk⟩ := Option.ne_none_iff_exists'.mp (mt highestSet_eq_none.mp h)
  have hlog : k = Nat.log 2 a.toNat := by rw [← highestSet_getD_zero, hk, Option.getD_some]
  have hshift : prevpow2Result a = BitVec.twoPow 32 k := by rw [prevpow2Result, hk, BitVec.twoPow_eq]
  rw [hshift, hlog]
  exact BitVec.toNat_twoPow_of_lt (log_two_toNat_lt a)

/-- D9: the shifts are logical, so a word with the sign bit set keeps that bit. -/
theorem prevpow2Result_of_neg {a : Word} (h : a.toInt < 0) : prevpow2Result a = 0x80000000 := by
  have hge : 2 ^ 31 ≤ a.toNat := by
    rw [BitVec.toInt_neg_iff] at h
    omega
  have hne : a ≠ 0 := by
    rintro rfl
    exact absurd hge (by decide)
  apply BitVec.eq_of_toNat_eq
  rw [toNat_prevpow2Result hne, Nat.log_eq_of_pow_le_of_lt_pow hge a.isLt]
  rfl

/-- Settles O33: the exponent is the binary logarithm, of which the library has the two bounds. -/
theorem prevpow2KeepsTheHighestSetBit : Obligations.Prevpow2KeepsTheHighestSetBit := by
  refine fun a _ _ s => ⟨rfl, prevpow2Result a, answers_result _ s, fun h => h ▸ prevpow2Result_zero, fun hne => ?_,
    prevpow2Result_of_neg⟩
  have hpos : a.toNat ≠ 0 := fun h => hne (BitVec.eq_of_toNat_eq h)
  exact ⟨Nat.log 2 a.toNat, log_two_toNat_lt a, toNat_prevpow2Result hne, Nat.pow_log_le_self 2 hpos,
    Nat.lt_pow_succ_log_self Nat.one_lt_two _⟩

end Sys2Proof.Machine
end

section
/-! Parity and bit reversal (R52, R53): the exclusive or of the bits of a word as the parity of their count, and its
linearity; BITREV byte by byte and bit by bit; the proofs of O34 and O35. -/

namespace Sys2Proof.Machine

/-! PARITY (R52) -/

/-- The exclusive or of the first `n` bits of `f`. -/
def xorBits (n : Nat) (f : Nat → Bool) : Bool := (List.range n).foldl (fun p i => Bool.xor p (f i)) false

theorem parityResult_eq_boolWord (a : Word) : parityResult a = boolWord (xorBits 32 a.getLsbD) := rfl

theorem xorBits_zero (f : Nat → Bool) : xorBits 0 f = false := rfl

theorem xorBits_succ (n : Nat) (f : Nat → Bool) : xorBits (n + 1) f = Bool.xor (xorBits n f) (f n) := by
  simp [xorBits, List.range_succ]

/-- The exclusive or says whether an odd number of the bits are set. -/
theorem xorBits_eq_bodd_sum (n : Nat) (f : Nat → Bool) :
    xorBits n f = ((List.range n).map fun i => (f i).toNat).sum.bodd := by
  induction n with
  | zero => simp [xorBits_zero]
  | succ n ih =>
    have hbit : (f n).toNat.bodd = f n := by cases f n <;> rfl
    rw [xorBits_succ, ih, List.range_succ, List.map_append, List.sum_append, Nat.bodd_add]
    simp [hbit]

/-- The exclusive or of all bits is linear. -/
theorem xorBits_xor (n : Nat) (f g : Nat → Bool) :
    xorBits n (fun i => Bool.xor (f i) (g i)) = Bool.xor (xorBits n f) (xorBits n g) := by
  induction n with
  | zero => rfl
  | succ n ih =>
    rw [xorBits_succ, xorBits_succ, xorBits_succ, ih, Bool.xor_assoc, Bool.xor_assoc, Bool.xor_left_comm (f n)]

theorem toNat_boolWord (p : Bool) : (boolWord p).toNat = p.toNat := by cases p <;> rfl

theorem boolWord_not (p : Bool) : boolWord (!p) = 1 - boolWord p := by cases p <;> rfl

theorem xorBits_getLsbD (a : Word) : xorBits 32 a.getLsbD = (popc a).bodd := xorBits_eq_bodd_sum 32 _

/-- PARITY, said once, as R52's count. -/
theorem toNat_parityResult (a : Word) : (parityResult a).toNat = popc a % 2 := by
  rw [parityResult_eq_boolWord, toNat_boolWord, xorBits_getLsbD, Nat.mod_two_of_bodd]

theorem xorBits_getLsbD_xor (a m : Word) :
    xorBits 32 (a ^^^ m).getLsbD = Bool.xor (xorBits 32 a.getLsbD) (xorBits 32 m.getLsbD) := by
  rw [← xorBits_xor]
  exact congrArg (xorBits 32) (funext fun _ => BitVec.getLsbD_xor)

/-- The complement has 32 set bits less the count, and 32 is even. -/
theorem parityResult_not (a : Word) : parityResult (~~~a) = parityResult a := by
  apply BitVec.eq_of_toNat_eq
  have hle := popc_le a
  rw [toNat_parityResult, toNat_parityResult, popc_not]
  omega

theorem setBits_oneBit (k : Fin 32) : setBits (1#32 <<< k.val) = {k} := by
  ext i
  rw [mem_setBits, ← BitVec.twoPow_eq, BitVec.getLsbD_twoPow, Finset.mem_singleton, Fin.ext_iff]
  simp [eq_comm]

theorem popc_oneBit {k : Nat} (hk : k < 32) : popc (1#32 <<< k) = 1 := by
  rw [popc_eq_card_setBits, setBits_oneBit ⟨k, hk⟩, Finset.card_singleton]

theorem parityResult_flip_bit (a : Word) {k : Nat} (hk : k < 32) :
    parityResult (a ^^^ (1#32 <<< k)) = 1 - parityResult a := by
  rw [parityResult_eq_boolWord, xorBits_getLsbD_xor, xorBits_getLsbD (1#32 <<< k), popc_oneBit hk, Nat.bodd_one,
    Bool.xor_true, boolWord_not, ← parityResult_eq_boolWord]

/-- Settles O34: the count is the size of the set of set bits; the complement keeps the parity of the count, and a mask
of one set bit flips the exclusive or by linearity. -/
theorem parityIsTheCountModuloTwo : Obligations.ParityIsTheCountModuloTwo := by
  refine fun a _ _ s => ⟨rfl, parityResult a, answers_result _ s, ?_, answers_iff.mpr (parityResult_not a).symm,
    fun _ hk => answers_iff.mpr (parityResult_flip_bit a hk).symm⟩
  rw [toNat_parityResult, popc_eq_card_setBits, setBits]

/-! BITREV (R53) -/

/-- Putting a byte below moves the other bytes up by one place. -/
theorem extractLsb'_succ_append_byte {n : Nat} (x : BitVec n) (b : Byte) (k : Nat) :
    (x ++ b).extractLsb' (8 * (k + 1)) 8 = x.extractLsb' (8 * k) 8 := by
  rw [BitVec.extractLsb'_append_eq_of_le (by omega), Nat.mul_succ, Nat.add_sub_cancel]

theorem extractLsb'_zero_append_byte {n : Nat} (x : BitVec n) (b : Byte) : (x ++ b).extractLsb' (8 * 0) 8 = b :=
  BitVec.extractLsb'_append_eq_right

/-- BITREV, said once, byte by byte. -/
theorem byteOf_bitrevResult (a : Word) {k : Nat} (hk : k < 4) :
    byteOf (bitrevResult a) (3 - k) = rev8 (byteOf a k) := by
  match k, hk with
  | 0, _ =>
    exact (extractLsb'_succ_append_byte _ _ 2).trans
      ((extractLsb'_succ_append_byte _ _ 1).trans BitVec.extractLsb'_append_eq_left)
  | 1, _ =>
    exact (extractLsb'_succ_append_byte _ _ 1).trans
      ((extractLsb'_succ_append_byte _ _ 0).trans (extractLsb'_zero_append_byte _ _))
  | 2, _ => exact (extractLsb'_succ_append_byte _ _ 0).trans (extractLsb'_zero_append_byte _ _)
  | 3, _ => exact extractLsb'_zero_append_byte _ _

/-- Each bit of a word stands in one of its bytes (R22). -/
theorem getLsbD_eq_byteOf (v : Word) (i : Nat) : v.getLsbD i = (byteOf v (i / 8)).getLsbD (i % 8) := by
  rw [getLsbD_byteOf, decide_eq_true (Nat.mod_lt i (by decide)), Bool.true_and, Nat.div_add_mod]

/-- BITREV bit by bit: the bytes stand in reverse order, and each is reversed by the ROM. -/
theorem getLsbD_bitrevResult (a : Word) {i : Nat} (hi : i < 32) : (bitrevResult a).getLsbD i = a.getLsbD (31 - i) := by
  have hbyte : byteOf (bitrevResult a) (i / 8) = rev8 (byteOf a (3 - i / 8)) := by
    rw [← byteOf_bitrevResult a (by omega), Nat.sub_sub_self (by omega)]
  calc (bitrevResult a).getLsbD i
      = (rev8 (byteOf a (3 - i / 8))).getLsbD (i % 8) := by rw [getLsbD_eq_byteOf, hbyte]
    _ = (byteOf a (3 - i / 8)).getLsbD (7 - i % 8) := getLsbD_rev8 _ (Nat.mod_lt i (by decide))
    _ = a.getLsbD (31 - i) := by
      rw [getLsbD_eq_byteOf a, show (31 - i) / 8 = 3 - i / 8 by omega, show (31 - i) % 8 = 7 - i % 8 by omega]

@[simp] theorem bitrevResult_bitrevResult (a : Word) : bitrevResult (bitrevResult a) = a := by
  apply BitVec.eq_of_getLsbD_eq
  intro i hi
  rw [getLsbD_bitrevResult _ hi, getLsbD_bitrevResult a (by omega), Nat.sub_sub_self (by omega)]

/-- Settles O35: by the bit form, the byte form and the involution. -/
theorem bitrevReversesTheBits : Obligations.BitrevReversesTheBits :=
  fun a _ _ s => ⟨rfl, bitrevResult a, answers_result _ s, fun _ => getLsbD_bitrevResult a,
    fun _ => byteOf_bitrevResult a, answers_iff.mpr (bitrevResult_bitrevResult a).symm⟩

end Sys2Proof.Machine
end

section
/-! The Morton codes (R54 to R57): each result said once bit by bit, and the proofs of O36 to O39. -/

namespace Sys2Proof.Machine

/-- A word built from bits that are 0 from place `n` upwards. -/
theorem toNat_ofBits_lt {f : Nat → Bool} {n : Nat} (h : ∀ i ≥ n, f i = false) : (ofBits f).toNat < 2 ^ n := by
  apply Nat.lt_pow_two_of_testBit
  intro i hi
  calc (ofBits f).toNat.testBit i
      = (decide (i < 32) && f i) := getLsbD_ofBits f i
    _ = false := by rw [h i hi, Bool.and_false]

/-! ILV2 (R54) -/

/-- Bit `2i + k` of the code is bit `i` of the coordinate number `k`. -/
theorem getLsbD_ilv2Result (a b : Word) {i k : Nat} (hi : i < 16) (hk : k < 2) :
    (ilv2Result a b).getLsbD (2 * i + k) = (if k = 0 then a.getLsbD i else b.getLsbD i) := by
  have hword : 2 * i + k < 32 := by omega
  have hmod : (2 * i + k) % 2 = k := by omega
  have hdiv : (2 * i + k) / 2 = i := by omega
  simp only [ilv2Result, getLsbD_ofBits, hword, hmod, hdiv, decide_true, Bool.true_and]

/-- Settles O36: by the even and the odd bits, and by the bits that ILV2 does not read. -/
theorem ilv2InterleavesTwoCoordinates : Obligations.Ilv2InterleavesTwoCoordinates :=
  fun a b _ s => ⟨rfl, ilv2Result a b, answers_result _ s,
    fun _ hi => ⟨getLsbD_ilv2Result a b (k := 0) hi (by decide), getLsbD_ilv2Result a b (k := 1) hi (by decide)⟩,
    answers_iff.mpr (ilv2Result_lowBits a b).symm⟩

/-! ILV3 (R56) -/

/-- Bit `3i + k` of the code is bit `i` of the coordinate number `k`. -/
theorem getLsbD_ilv3Result (a b c : Word) {i k : Nat} (hi : i < 10) (hk : k < 3) :
    (ilv3Result a b c).getLsbD (3 * i + k) =
      (if k = 0 then a.getLsbD i else if k = 1 then b.getLsbD i else c.getLsbD i) := by
  have hlt : 3 * i + k < 30 := by omega
  have hword : 3 * i + k < 32 := by omega
  have hmod : (3 * i + k) % 3 = k := by omega
  have hdiv : (3 * i + k) / 3 = i := by omega
  simp only [ilv3Result, getLsbD_ofBits, hlt, hword, hmod, hdiv, decide_true, Bool.true_and]

/-- Bits 31 and 30 of the code are 0. -/
theorem toNat_ilv3Result_lt (a b c : Word) : (ilv3Result a b c).toNat < 2 ^ 30 := by
  refine toNat_ofBits_lt fun i hi => ?_
  rw [decide_eq_false (Nat.not_lt.mpr hi), Bool.false_and]

/-- Settles O38: by the three residues of a bit's place modulo 3, and by the bits that ILV3 does not read. -/
theorem ilv3InterleavesThreeCoordinates : Obligations.Ilv3InterleavesThreeCoordinates :=
  fun a b c s => ⟨rfl, ilv3Result a b c, answers_result _ s,
    fun _ hi => ⟨getLsbD_ilv3Result a b c (k := 0) hi (by decide), getLsbD_ilv3Result a b c (k := 1) hi (by decide),
      getLsbD_ilv3Result a b c (k := 2) hi (by decide)⟩,
    toNat_ilv3Result_lt a b c, answers_iff.mpr (ilv3Result_lowBits a b c).symm⟩

/-! The extraction that DILV2 and DILV3 share: every `m`-th bit of a shifted code, the shift counting modulo 32 (D13,
D15) -/

/-- The word of the `n` bits that stand in `v` at the multiples of `m`. -/
def everyBit (m n : Nat) (v : Word) : Word := ofBits fun i => decide (i < n) && v.getLsbD (m * i)

theorem dilv2Result_eq_everyBit (a b : Word) : dilv2Result a b = everyBit 2 16 (lsr a b) := rfl

theorem dilv3Result_eq_everyBit (a b : Word) : dilv3Result a b = everyBit 3 10 (lsr a b) := rfl

theorem getLsbD_everyBit (m : Nat) {n i : Nat} (v : Word) (hi : i < n) (hi' : i < 32) :
    (everyBit m n v).getLsbD i = v.getLsbD (m * i) := by
  rw [everyBit, getLsbD_ofBits, decide_eq_true hi', decide_eq_true hi, Bool.true_and, Bool.true_and]

/-- R55, R57: the coordinate is zero-extended. -/
theorem toNat_everyBit_lt (m n : Nat) (v : Word) : (everyBit m n v).toNat < 2 ^ n := by
  refine toNat_ofBits_lt fun i hi => ?_
  rw [decide_eq_false (Nat.not_lt.mpr hi), Bool.false_and]

/-- The logical shift with its zeros written out: they enter where the place runs past bit 31. -/
theorem getLsbD_lsr_eq_and (v n : Word) (i : Nat) :
    (lsr v n).getLsbD i = (decide (i + n.toNat % 32 < 32) && v.getLsbD (i + n.toNat % 32)) := by
  rw [getLsbD_lsr, shiftAmount, Nat.add_comm]
  by_cases h : i + n.toNat % 32 < 32
  · rw [decide_eq_true h, Bool.true_and]
  · rw [decide_eq_false h, Bool.false_and, BitVec.getLsbD_of_ge _ _ (Nat.not_lt.mp h)]

/-- `2^32` is a multiple of 32, so the wrap of the sum does not show in the shift amount. -/
theorem shiftAmount_add_32 (n : Word) : shiftAmount (n + 32) = shiftAmount n := by
  have hsum : (n + 32).toNat = (n.toNat + 32) % 2 ^ 32 := BitVec.toNat_add n 32
  rw [shiftAmount, shiftAmount]
  omega

theorem lsr_add_32 (v n : Word) : lsr v (n + 32) = lsr v n := by
  rw [lsr, shiftAmount_add_32, lsr]

/-! DILV2 (R55) -/

theorem getLsbD_dilv2Result (a b : Word) {i : Nat} (hi : i < 16) :
    (dilv2Result a b).getLsbD i = (decide (2 * i + b.toNat % 32 < 32) && a.getLsbD (2 * i + b.toNat % 32)) := by
  rw [dilv2Result_eq_everyBit, getLsbD_everyBit 2 _ hi (by omega), getLsbD_lsr_eq_and]

theorem toNat_dilv2Result_lt (a b : Word) : (dilv2Result a b).toNat < 2 ^ 16 := toNat_everyBit_lt 2 16 (lsr a b)

theorem dilv2Result_add_32 (a b : Word) : dilv2Result a (b + 32) = dilv2Result a b :=
  congrArg (everyBit 2 16) (lsr_add_32 a b)

/-- Settles O37: by the bits of the shifted code, and by the modulus of the shift amount. -/
theorem dilv2ExtractsEverySecondBit : Obligations.Dilv2ExtractsEverySecondBit :=
  fun a b _ s => ⟨rfl, dilv2Result a b, answers_result _ s, fun _ => getLsbD_dilv2Result a b,
    toNat_dilv2Result_lt a b, answers_iff.mpr (dilv2Result_add_32 a b).symm⟩

/-! DILV3 (R57) -/

theorem getLsbD_dilv3Result (a b : Word) {i : Nat} (hi : i < 10) :
    (dilv3Result a b).getLsbD i = (decide (3 * i + b.toNat % 32 < 32) && a.getLsbD (3 * i + b.toNat % 32)) := by
  rw [dilv3Result_eq_everyBit, getLsbD_everyBit 3 _ hi (by omega), getLsbD_lsr_eq_and]

theorem toNat_dilv3Result_lt (a b : Word) : (dilv3Result a b).toNat < 2 ^ 10 := toNat_everyBit_lt 3 10 (lsr a b)

theorem dilv3Result_add_32 (a b : Word) : dilv3Result a (b + 32) = dilv3Result a b :=
  congrArg (everyBit 3 10) (lsr_add_32 a b)

/-- Settles O39: by the bits of the shifted code, and by the modulus of the shift amount. -/
theorem dilv3ExtractsEveryThirdBit : Obligations.Dilv3ExtractsEveryThirdBit :=
  fun a b _ s => ⟨rfl, dilv3Result a b, answers_result _ s, fun _ => getLsbD_dilv3Result a b,
    toNat_dilv3Result_lt a b, answers_iff.mpr (dilv3Result_add_32 a b).symm⟩

end Sys2Proof.Machine
end

section
/-! NEXTCOMB (R58): the shift amount of the printed formula, and the proof of O40. -/

namespace Sys2Proof.Machine

/-- `2^32` is a multiple of 32, so the wrap of the increment does not show in the shift amount. -/
theorem shiftAmount_add_one (n : Word) : shiftAmount (n + 1) = (n.toNat + 1) % 32 := by
  have hsum : (n + 1).toNat = (n.toNat + 1) % 2 ^ 32 := BitVec.toNat_add n 1
  rw [shiftAmount]
  omega

/-- NEXTCOMB with the shift amount of the printed formula, the count of CTZ plus one, taken modulo 32 (D8). -/
theorem nextcombResult_eq_ushiftRight (a : Word) :
    nextcombResult a = (nextcombFilled a + 1) ||| (nextcombGap a >>> (((ctzResult a).toNat + 1) % 32)) := by
  rw [nextcombResult, lsr, shiftAmount_add_one]

/-- The count inside NEXTCOMB is R49's, its sentinel included. -/
theorem ctzResult_cases (a : Word) :
    (a = 0 ∧ (ctzResult a).toNat = 32) ∨
      ((ctzResult a).toNat < 32 ∧ a.getLsbD (ctzResult a).toNat = true ∧
        ∀ j < (ctzResult a).toNat, a.getLsbD j = false) := by
  by_cases h : a = 0
  · exact .inl ⟨h, by rw [h, ctzResult_zero]; rfl⟩
  · exact .inr (ctzResult_of_ne_zero h)

/-- D26: the sentinel makes the shift amount 33, which counts as 1. -/
theorem nextcombResult_zero : nextcombResult 0 = 0x7FFFFFFF := by decide

/-- D8: the shift amount is 32, which counts as 0, and the gap stays whole. -/
theorem nextcombResult_intMin : nextcombResult 0x80000000 = 0xFFFFFFFF := by decide

/-- Settles O40: the intermediate words are the model's own, and the count is that of CTZ. -/
theorem nextcombFollowsThePrintedFormula : Obligations.NextcombFollowsThePrintedFormula :=
  fun a _ _ s => ⟨rfl, nextcombResult a, nextcombFilled a, ~~~(nextcombFilled a), nextcombGap a, (ctzResult a).toNat,
    answers_result _ s, rfl, rfl, rfl, ctzResult_cases a, nextcombResult_eq_ushiftRight a,
    fun h => h ▸ nextcombResult_zero, fun h => h ▸ nextcombResult_intMin⟩

end Sys2Proof.Machine
end

section
/-! What every cycle does, whatever its kind, and what a cycle with reset does (R60, R70, R73, R76): the proofs of O7, O9,
O11, O13 and O20. -/

namespace Sys2Proof.Machine

/-- Settles O13: each of the four kinds of cycle ends in a next state. -/
theorem everyCycleEndsInANextState : Obligations.EveryCycleEndsInANextState := by
  intro s
  obtain ⟨-, h⟩ | ⟨-, h⟩ | ⟨-, h⟩ | ⟨i, -, h⟩ := step_cases s <;> exact ⟨_, h⟩

/-- Settles O9: every kind of cycle ends with the host's next inputs, and none touches the host's list before that. -/
theorem hostDrivesTheNextCycle : Obligations.HostDrivesTheNextCycle := by
  intro s t hstep
  obtain ⟨-, h⟩ | ⟨-, h⟩ | ⟨-, h⟩ | ⟨i, -, h⟩ := step_cases s <;> cases hstep.symm.trans h <;> simp

/-- A number that decodes as a packed request stands for a request that decodes. -/
theorem decodePacked_eq_ok_iff {w : Nat} {i : Instr} :
    decodePacked w = .ok i ↔ ∃ q, Request.ofPacked w = some q ∧ decode q = .ok i := by
  unfold decodePacked
  cases Request.ofPacked w <;> simp

theorem decodeTableWord_eq_some_iff {nbits w : Nat} {i : Instr} :
    decodeTableWord nbits w = some i ↔ decodePacked (w % 2 ^ nbits) = .ok i := by
  unfold decodeTableWord
  cases decodePacked (w % 2 ^ nbits) <;> simp [Except.toOption]

/-- A packed request is presented as it is, without reset (log 9). -/
theorem present_of_ofPacked {w : Nat} {q : Request} (h : Request.ofPacked w = some q) :
    PortIn.present w = { rst := false, reqValid := true, req := q } := by
  simp [PortIn.present, h]

@[simp] theorem State.withFetchWord_port (s : State) (nbits w : Nat) :
    (s.withFetchWord nbits w).port = PortIn.present (w % 2 ^ nbits) := rfl

/-- Settles O7: the ports then present a request that decodes, which is O6's premise. -/
theorem presentedTableWordIsRunByTheNextStep : Obligations.PresentedTableWordIsRunByTheNextStep := by
  intro s nbits w i h
  obtain ⟨q, hq, hi⟩ := decodePacked_eq_ok_iff.mp (decodeTableWord_eq_some_iff.mp h)
  have hport : (s.withFetchWord nbits w).port = { rst := false, reqValid := true, req := q } :=
    present_of_ofPacked hq
  exact stepRunsTheDecodedInstruction _ i (by rw [hport]) (by rw [hport]) (by rw [hport]; exact hi)

/-- A cycle with reset does not look at the input ports (R70). -/
theorem State.resetCycle_of_port (s : State) (p : PortIn) : State.resetCycle { s with port := p } = s.resetCycle := by
  unfold State.resetCycle State.nextInputs
  split <;> simp_all [State.noResponse]

theorem step_reset_of_port (s : State) {p : PortIn} (hs : s.port.rst = true) (hp : p.rst = true) :
    step { s with port := p } = step s := by
  have hstep : step { s with port := p } = .next (State.resetCycle { s with port := p }) := step_of_reset hp
  rw [hstep, State.resetCycle_of_port, step_of_reset hs]

/-- After a cycle with reset the host's requests are answered with their results and nothing else is (R70, D17). The
cycle itself is silent and leaves an empty pipeline, which the host then finds as after R71. -/
theorem responses_after_reset {s : State} {ws : List Word} (hrst : s.port.rst = true) (hnr : NoReset s.drive)
    (hres : List.Forall₂ HasResult (presented s.drive) ws) : responses (1 + s.drive.length + s.lat) s = ws := by
  have hsilent (n : Nat) : responses (1 + n) s = responses n s.resetCycle := by
    rw [Nat.add_comm, responses_succ (step_of_reset hrst)]
    simp
  rw [Nat.add_assoc, hsilent]
  cases hd : s.drive with
  | nil =>
    obtain rfl : ws = [] := by simpa [hd] using hres
    have hform : RisingBelow s.lat s.resetCycle.inFlight := by simp [RisingBelow]
    rw [List.length_nil, Nat.zero_add, responses_of_silent_host s.lat hform (by simp [hd]) (by simp [hd])]
    simp [State.pending]
  | cons p ps =>
    have hstream : s.resetCycle.port :: s.resetCycle.drive = s.drive := by simp [hd]
    have hlen : (p :: ps).length + s.lat = 1 + s.resetCycle.drive.length + s.resetCycle.lat := by
      simp [hd, Nat.add_comm]
    rw [hlen]
    exact responses_eq_results (by simp) (hstream ▸ hnr) (hstream ▸ hres)

/-- Settles O11: the reset cycle, its independence of the request ports, the responses after it, and the bound of R17 at
`LAT` = 0. -/
theorem resetCycleDropsEverythingInFlight : Obligations.ResetCycleDropsEverythingInFlight := by
  intro s hrst
  refine ⟨⟨s.resetCycle, step_of_reset hrst, by simp⟩, fun valid q => step_reset_of_port s hrst rfl,
    fun results hnr hans => responses_after_reset hrst hnr (hans.imp ?_), fun hok hlat => ?_⟩
  · rintro q v ⟨i, hi, hv⟩
    rw [HasResult, resultOfRequest_of_ok hi, answers_iff.mp hv]
  · have hle : s.inFlight.length ≤ s.lat := (pipelineOk_iff.mp hok).length_le
    exact List.length_eq_zero_iff.mp (by omega)

theorem earliestDependentIssue_zero (t : Nat) (registers : Bool) :
    earliestDependentIssue 0 t registers = t + 1 := by
  cases registers <;> simp [earliestDependentIssue]

theorem earliestDependentIssue_of_pos {lat : Nat} (h : 0 < lat) (t : Nat) (registers : Bool) :
    earliestDependentIssue lat t registers = t + lat + registers.toNat :=
  Nat.max_eq_right (by omega)

/-- Settles O20: the greater of the two bounds of R73, the second one where `LAT` is not 0. -/
theorem dependentRequestWaitsForItsResponse : Obligations.DependentRequestWaitsForItsResponse := by
  intro lat t registers
  refine ⟨(Nat.le_add_right _ _).trans (Nat.le_max_right _ _), Nat.le_max_left _ _, ?_, fun hpos => ?_⟩
  · rintro rfl
    exact earliestDependentIssue_zero t registers
  · exact ⟨earliestDependentIssue_of_pos hpos t false, earliestDependentIssue_of_pos hpos t true⟩

end Sys2Proof.Machine
end

section
/-! The lowest set bit of a word, isolated or filled below by the printed formulas (R45, R49, R58), and the selector
family's masks (40_select.md section 2): the proofs of O41, O42 and O46. -/

namespace Sys2Proof.Machine

/-- The single bits of the word with one bit. -/
theorem getLsbD_oneBit {k : Nat} (hk : k < 32) (i : Nat) : (BitVec.twoPow 32 k).getLsbD i = decide (k = i) := by
  rw [BitVec.getLsbD_twoPow, decide_eq_true hk, Bool.true_and]

theorem lowestSet_twoPow {k : Nat} (hk : k < 32) : lowestSet (BitVec.twoPow 32 k) = some k := by
  refine lowestSet_eq_some.mpr ⟨hk, ?_, fun j hj => ?_⟩
  · rw [getLsbD_oneBit hk, decide_eq_true rfl]
  · rw [getLsbD_oneBit hk, decide_eq_false hj.ne']

/-! The decrement and the negation of a word that is not 0, by its lowest set bit -/

section
variable {a : Word} {k : Nat}

/-- Whether some lower bit is set is whether the lowest set bit is lower. -/
theorem exists_lower_set_iff (h : lowestSet a = some k) (i : Nat) : (∃ j < i, a.getLsbD j = true) ↔ k < i := by
  obtain ⟨-, hset, hbelow⟩ := lowestSet_eq_some.mp h
  constructor
  · rintro ⟨j, hj, hbit⟩
    by_contra hle
    rw [hbelow j (by omega)] at hbit
    cases hbit
  · exact fun hlt => ⟨k, hlt, hset⟩

/-- Negation keeps the lowest set bit and what is below, and inverts what is above. -/
theorem getLsbD_neg_of_lowestSet (h : lowestSet a = some k) {i : Nat} (hi : i < 32) :
    (-a).getLsbD i = Bool.xor (a.getLsbD i) (decide (k < i)) := by
  rw [BitVec.getLsbD_neg, decide_eq_true hi, Bool.true_and]
  congr 1
  rw [decide_eq_decide]
  exact exists_lower_set_iff h i

/-- The decrement inverts the lowest set bit and what is below, and keeps what is above. -/
theorem getLsbD_sub_one_of_lowestSet (h : lowestSet a = some k) {i : Nat} (hi : i < 32) :
    (a - 1).getLsbD i = Bool.xor (a.getLsbD i) (decide (i ≤ k)) := by
  have hnot : a - 1 = ~~~(-a) := (BitVec.not_neg a).symm
  rw [hnot, BitVec.getLsbD_not, decide_eq_true hi, Bool.true_and, getLsbD_neg_of_lowestSet h hi, ← Bool.xor_not,
    ← decide_not]
  simp only [Nat.not_lt]

/-- `a & -a` keeps the lowest set bit alone (R49, R58). -/
theorem and_neg_eq_twoPow (h : lowestSet a = some k) : a &&& -a = BitVec.twoPow 32 k := by
  obtain ⟨hk, hset, hbelow⟩ := lowestSet_eq_some.mp h
  apply BitVec.eq_of_getLsbD_eq
  intro i hi
  rw [BitVec.getLsbD_and, getLsbD_neg_of_lowestSet h hi, getLsbD_oneBit hk]
  obtain hlt | rfl | hgt := Nat.lt_trichotomy i k
  · simp [hbelow i hlt, hlt.ne']
  · simp [hset]
  · simp [hgt, hgt.ne]

end

/-! ISPOW2 (R45) -/

/-- The formula of R45 leaves what is above the lowest set bit, so it is 0 for the single-bit words alone. -/
theorem and_sub_one_eq_zero_iff {a : Word} {k : Nat} (h : lowestSet a = some k) :
    a &&& (a - 1) = 0 ↔ a = 1#32 <<< k := by
  obtain ⟨hk, hset, hbelow⟩ := lowestSet_eq_some.mp h
  have hbit {i : Nat} (hi : i < 32) : (a &&& (a - 1)).getLsbD i = (a.getLsbD i && decide (k < i)) := by
    rw [BitVec.getLsbD_and, getLsbD_sub_one_of_lowestSet h hi]
    obtain hlt | hle := Nat.lt_or_ge k i
    · simp [hlt, Nat.not_le.mpr hlt]
    · simp [hle, Nat.not_lt.mpr hle]
  rw [← BitVec.twoPow_eq]
  constructor
  · intro hzero
    apply BitVec.eq_of_getLsbD_eq
    intro i hi
    have hcleared : (a.getLsbD i && decide (k < i)) = false := by rw [← hbit hi, hzero]; exact BitVec.getLsbD_zero
    rw [getLsbD_oneBit hk]
    obtain hlt | rfl | hgt := Nat.lt_trichotomy i k
    · simp [hbelow i hlt, hlt.ne']
    · simp [hset]
    · simpa [hgt, hgt.ne] using hcleared
  · intro hsingle
    apply BitVec.eq_of_getLsbD_eq
    intro i hi
    rw [hbit hi, hsingle, getLsbD_oneBit hk]
    by_cases hki : k = i <;> simp [hki]

theorem ispow2Formula_iff (a : Word) : (a ≠ 0 ∧ a &&& (a - 1) = 0) ↔ ∃ k < 32, a = 1#32 <<< k := by
  constructor
  · rintro ⟨hne, hzero⟩
    obtain ⟨k, hk⟩ := exists_lowestSet hne
    obtain ⟨hlt, -⟩ := lowestSet_eq_some.mp hk
    exact ⟨k, hlt, (and_sub_one_eq_zero_iff hk).mp hzero⟩
  · rintro ⟨k, hlt, rfl⟩
    have hk : lowestSet (1#32 <<< k) = some k := BitVec.twoPow_eq 32 k ▸ lowestSet_twoPow hlt
    refine ⟨fun hzero => ?_, (and_sub_one_eq_zero_iff hk).mpr rfl⟩
    cases hk.symm.trans (lowestSet_eq_none.mpr hzero)

/-- Settles O42: the formula singles out the single-bit words, and 1 and 0 are different answers. -/
theorem ispow2HoldsForSingleBitWordsOnly : Obligations.Ispow2HoldsForSingleBitWordsOnly := by
  intro a s
  rw [answers_iff, answers_iff, result, ispow2Result_eq_ite, ← ispow2Formula_iff]
  by_cases hformula : a ≠ 0 ∧ a &&& (a - 1) = 0
  · rw [if_pos hformula]
    exact ⟨iff_of_true rfl hformula, iff_of_false (by decide) (not_not_intro hformula)⟩
  · rw [if_neg hformula]
    exact ⟨iff_of_false (by decide) hformula, iff_of_true rfl hformula⟩

/-! CTZ (R49) -/

/-- The datapath looks at the isolated bit alone. -/
theorem ctzPath_congr {a b : Word} (h : a &&& -a = b &&& -b) : ctzPath a = ctzPath b := by
  simp only [ctzPath, h]

/-- The constants of the tests, on each of the thirty-two single-bit words: mask by mask the set bits are the places
whose binary digit is 0. -/
theorem ctzPath_twoPow : ∀ k < 32, ctzPath (BitVec.twoPow 32 k) = BitVec.ofNat 32 k := by decide

/-- Settles O46: the sentinel, and the lowest set bit isolated and then located. -/
theorem maskTestsComputeCtz : Obligations.MaskTestsComputeCtz := by
  intro a s
  rw [answers_iff, result, ctzResult]
  cases h : lowestSet a with
  | none =>
    rw [lowestSet_eq_none.mp h]
    rfl
  | some k =>
    obtain ⟨hlt, -⟩ := lowestSet_eq_some.mp h
    have hsame : a &&& -a = BitVec.twoPow 32 k &&& -BitVec.twoPow 32 k := by
      rw [and_neg_eq_twoPow h, and_neg_eq_twoPow (lowestSet_twoPow hlt)]
    rw [ctzPath_congr hsame, ctzPath_twoPow k hlt, Option.getD_some]

/-! The masks of 40_select.md -/

theorem bcast_true : bcast true = BitVec.allOnes 32 := rfl

theorem bcast_false : bcast false = 0 := rfl

/-- The arithmetic shift by 31 is the sign broadcast to all bits. -/
theorem asr_31 (a : Word) : asr a 31 = bcast (a.getLsbD 31) := by
  have hshift : shiftAmount 31 = 31 := by decide
  apply BitVec.eq_of_getLsbD_eq
  intro i hi
  have hsign : (asr a 31).getLsbD i = a.getLsbD 31 := by
    rw [asr, hshift, BitVec.getLsbD_sshiftRight, BitVec.msb_eq_getLsbD_last, decide_eq_false (by omega), Bool.not_false,
      Bool.true_and]
    split_ifs with h
    · rw [show 31 + i = 31 by omega]
    · rfl
  rw [hsign]
  cases a.getLsbD 31
  · exact BitVec.getLsbD_zero.symm
  · rw [bcast_true, BitVec.getLsbD_allOnes, decide_eq_true hi]

/-- Bit 31 is the sign of the signed value (R41, R42). -/
theorem getLsbD_31_eq_decide (a : Word) : a.getLsbD 31 = decide (a.toInt < 0) :=
  (BitVec.msb_eq_getLsbD_last a).symm.trans BitVec.msb_eq_toInt

/-- The complement in the arithmetic of words, 00_scope.md section 4. -/
theorem not_eq_neg_sub_one (a : Word) : ~~~a = -a - 1 := BitVec.not_eq_neg_add a

theorem bcast_true_eq_neg_one : bcast true = -1 := rfl

theorem xor_bcast_true (a : Word) : a ^^^ bcast true = -a - 1 := BitVec.xor_allOnes.trans (not_eq_neg_sub_one a)

theorem bcomplPath_eq (a : Word) : bcomplPath a = bcomplResult a := by
  rw [bcomplPath, bcomplResult, not_eq_neg_sub_one]
  ring

/-- The difference of the two comparisons, in the three cases of the sign. -/
theorem signPath_eq (a : Word) : signPath a = signResult a := by
  obtain hneg | hzero | hpos := lt_trichotomy a.toInt 0
  · simp [signPath, signResult_of_neg hneg, hneg, hneg.not_gt, boolWord]
  · simp [signPath, signResult, hzero, boolWord]
  · simp [signPath, signResult_of_pos hpos, hpos, hpos.not_gt, boolWord]

/-- The other form of SIGN: the sign mask joined with the test for a positive word. -/
theorem signMask_or_eq (a : Word) : asr a 31 ||| boolWord (a != 0 && !a.getLsbD 31) = signResult a := by
  rw [asr_31, getLsbD_31_eq_decide]
  obtain hneg | hzero | hpos := lt_trichotomy a.toInt 0
  · simp [signResult_of_neg hneg, hneg, bcast, boolWord]
  · obtain rfl : a = 0 := BitVec.eq_of_toInt_eq hzero
    rfl
  · have hne : a ≠ 0#32 := fun h => absurd (h ▸ hpos) (by decide)
    simp [signResult_of_pos hpos, hpos.not_gt, hne, bcast, boolWord]

/-- With the mask of all ones the exclusive or complements and the subtraction increments; with 0 both do nothing. -/
theorem absPath_eq (a : Word) : absPath a = absResult a := by
  rw [absPath, asr_31]
  cases h : a.getLsbD 31 with
  | false => simp [bcast_false, absResult_of_bit31_clear h]
  | true =>
    rw [xor_bcast_true, absResult_of_bit31_set h, bcast_true_eq_neg_one]
    ring

/-- The other reading of ABS: with the mask of all ones the addition decrements before the complement. -/
theorem absMask_xor_eq (a : Word) : (a + asr a 31) ^^^ asr a 31 = absResult a := by
  rw [asr_31]
  cases h : a.getLsbD 31 with
  | false => simp [bcast_false, absResult_of_bit31_clear h]
  | true =>
    rw [xor_bcast_true, absResult_of_bit31_set h, bcast_true_eq_neg_one]
    ring

/-- The broadcast comparison switches between the operands: `b ^ (a ^ b)` is `a`, and `b ^ 0` is `b`. -/
theorem xor_and_bcast (a b : Word) (p : Bool) : b ^^^ ((a ^^^ b) &&& bcast p) = if p then a else b := by
  cases p with
  | false => simp [bcast_false]
  | true => rw [bcast_true, BitVec.and_allOnes, BitVec.xor_comm a, ← BitVec.xor_assoc, BitVec.xor_self]; simp

theorem minPath_eq (a b : Word) : minPath a b = minResult a b := xor_and_bcast a b _

theorem maxPath_eq (a b : Word) : maxPath a b = maxResult a b := by
  rw [maxPath, BitVec.xor_comm a b]
  exact xor_and_bcast b a _

/-- Settles O41: formula by formula. -/
theorem selectDatapathsComputeTheirDefinitions : Obligations.SelectDatapathsComputeTheirDefinitions :=
  fun a b _ => ⟨answers_iff.mpr (bcomplPath_eq a), answers_iff.mpr (signPath_eq a), answers_iff.mpr (signMask_or_eq a),
    answers_iff.mpr (absPath_eq a), answers_iff.mpr (absMask_xor_eq a), answers_iff.mpr (minPath_eq a b),
    answers_iff.mpr (maxPath_eq a b)⟩

end Sys2Proof.Machine
end

section
/-! The datapaths of the logarithms, of PREVPOW2 and of PARITY (41_pow2_log.md, 43_pow2_round.md, 44_parity_reverse.md),
and the leading zeros as CTZ of BITREV: the proofs of O43, O44, O47, O48 and O52. -/

namespace Sys2Proof.Machine

/-! LOG2 (R46): the cascade as a search that halves the range of the exponent -/

/-- The search for the exponent of `a` when `e` stages remain: what is accumulated in `acc` and what is left in `v` make
up the logarithm, `acc` in steps of `2^e` and `v` with fewer than `2^e` bits. -/
structure Log2Search (e : Nat) (a acc v : Word) : Prop where
  log_eq : acc.toNat + Nat.log 2 v.toNat = Nat.log 2 a.toNat
  dvd : 2 ^ e ∣ acc.toNat
  lt : v.toNat < 2 ^ 2 ^ e

theorem log2Search_start (a : Word) : Log2Search 5 a 0 a :=
  ⟨Nat.zero_add _, Nat.dvd_zero _, a.isLt⟩

/-- A multiple of `2^n` and a number below it join without overlap. -/
theorem or_eq_add_of_dvd {n x y : Nat} (hx : 2 ^ n ∣ x) (hy : y < 2 ^ n) : x ||| y = x + y := by
  obtain ⟨m, rfl⟩ := hx
  exact (Nat.two_pow_add_eq_or_of_lt hy m).symm

theorem log2Shift_of_lt {v bound : Word} (e : Nat) (h : bound.toNat < v.toNat) :
    log2Shift v bound e = BitVec.twoPow 32 e := by
  rw [log2Shift, decide_eq_true h, BitVec.twoPow_eq]
  rfl

theorem log2Shift_of_le {v bound : Word} (e : Nat) (h : v.toNat ≤ bound.toNat) : log2Shift v bound e = 0 := by
  rw [log2Shift, decide_eq_false (Nat.not_lt.mpr h)]
  exact BitVec.zero_shiftLeft e

/-- One stage: a word of more than `2^e` bits gives `2^e` to the exponent and is shifted right by as much. -/
theorem Log2Search.next {e : Nat} {a acc v bound : Word} (h : Log2Search (e + 1) a acc v) (he : e < 5)
    (hbound : bound.toNat + 1 = 2 ^ 2 ^ e) :
    Log2Search e a (acc ||| log2Shift v bound e) (lsr v (log2Shift v bound e)) := by
  obtain ⟨hlog, hdvd, hlt⟩ := h
  have hdvd' : 2 ^ e ∣ acc.toNat := (Nat.pow_dvd_pow 2 e.le_succ).trans hdvd
  obtain hgt | hle := Nat.lt_or_ge bound.toNat v.toNat
  · have hpow : 2 ^ e < 32 := Nat.pow_lt_pow_right (n := 5) Nat.one_lt_two he
    have hshift : (log2Shift v bound e).toNat = 2 ^ e := by
      rw [log2Shift_of_lt e hgt, BitVec.toNat_twoPow_of_lt (by omega)]
    have hacc : (acc ||| log2Shift v bound e).toNat = acc.toNat + 2 ^ e := by
      rw [BitVec.toNat_or, hshift]
      exact or_eq_add_of_dvd hdvd (Nat.pow_lt_pow_succ Nat.one_lt_two)
    have hv : (lsr v (log2Shift v bound e)).toNat = v.toNat / 2 ^ 2 ^ e := by
      rw [lsr, shiftAmount, hshift, Nat.mod_eq_of_lt hpow, BitVec.toNat_ushiftRight, Nat.shiftRight_eq_div_pow]
    have hreach : 2 ^ e ≤ Nat.log 2 v.toNat := Nat.le_log_of_pow_le Nat.one_lt_two (by omega)
    refine ⟨?_, ?_, ?_⟩
    · rw [hacc, hv, Nat.log_div_base_pow]
      omega
    · rw [hacc]
      exact (Nat.dvd_add_right hdvd').mpr dvd_rfl
    · rw [hv]
      refine Nat.div_lt_of_lt_mul ?_
      rwa [← Nat.pow_add, ← Nat.two_mul, ← Nat.pow_succ']
  · rw [log2Shift_of_le e hle]
    have hv : lsr v 0 = v := BitVec.ushiftRight_zero v
    have hacc : acc ||| 0 = acc := BitVec.or_zero
    rw [hv, hacc]
    exact ⟨hlog, hdvd', by omega⟩

/-- The last stage needs no comparison: the logarithm of a word below 4 is its half. -/
theorem Log2Search.result {a acc v : Word} (h : Log2Search 1 a acc v) :
    (acc ||| (v >>> 1)).toNat = Nat.log 2 a.toNat := by
  obtain ⟨hlog, hdvd, hlt⟩ := h
  have hhalf : ∀ n < 4, Nat.log 2 n = n / 2 := by decide
  have hv : (v >>> 1).toNat = v.toNat / 2 := by rw [BitVec.toNat_ushiftRight, Nat.shiftRight_eq_div_pow, Nat.pow_one]
  rw [BitVec.toNat_or, hv, or_eq_add_of_dvd hdvd (by omega), ← hhalf _ hlt, hlog]

theorem toNat_log2Path (a : Word) : (log2Path a).toNat = Nat.log 2 a.toNat := by
  have h4 := (log2Search_start a).next (bound := 0xFFFF#32) (by decide) (by decide)
  have h3 := h4.next (bound := 0xFF#32) (by decide) (by decide)
  have h2 := h3.next (bound := 0xF#32) (by decide) (by decide)
  have h1 := h2.next (bound := 0x3#32) (by decide) (by decide)
  have hzero (q : Word) : 0 ||| q = q := BitVec.zero_or
  rw [hzero] at h1
  exact h1.result

/-- Settles O43: both are the binary logarithm. -/
theorem log2CascadeComputesLog2 : Obligations.Log2CascadeComputesLog2 := by
  intro a s
  rw [answers_iff, result]
  exact BitVec.eq_of_toNat_eq ((toNat_log2Path a).trans (toNat_log2Result a).symm)

/-! LOG10 (R47) -/

/-- The chain tests the decimal logarithm from 9 downwards. -/
theorem toNat_log10Path (a : Word) : (log10Path a).toNat = Nat.log 10 a.toInt.toNat := by
  have hreach (k : Nat) (hk : 1 ≤ k := by decide) := ten_pow_le_toInt_iff a hk
  have hle := log_ten_toInt_le a
  have h9 := hreach 9
  have h8 := hreach 8
  have h7 := hreach 7
  have h6 := hreach 6
  have h5 := hreach 5
  have h4 := hreach 4
  have h3 := hreach 3
  have h2 := hreach 2
  have h1 := hreach 1
  norm_num only at h1 h2 h3 h4 h5 h6 h7 h8 h9
  simp only [log10Path, h1, h2, h3, h4, h5, h6, h7, h8, h9]
  generalize Nat.log 10 a.toInt.toNat = d at hle
  interval_cases d <;> rfl

/-- Settles O44: both are the decimal logarithm of the signed value cut off below 0. -/
theorem log10ChainComputesLog10 : Obligations.Log10ChainComputesLog10 := by
  intro a s
  rw [answers_iff, result]
  exact BitVec.eq_of_toNat_eq ((toNat_log10Path a).trans (toNat_log10Result a).symm)

/-! PREVPOW2 (R51) -/

theorem toNat_fill_of_bounds {a : Word} {k : Nat} (hle : 2 ^ k ≤ a.toNat) (hlt : a.toNat < 2 ^ (k + 1)) :
    (fill a).toNat = 2 ^ (k + 1) - 1 := by
  rw [toNat_fill, clog_two_eq_succ (Nat.lt_succ_of_le hle) hlt]

theorem fill_zero : fill 0 = 0 := by decide

/-- Of the `k + 1` ones the shift takes one away, so the difference is the top one. -/
theorem prevpow2Path_eq (a : Word) : prevpow2Path a = prevpow2Result a := by
  obtain rfl | hne := eq_or_ne a 0
  · rw [prevpow2Path, fill_zero, prevpow2Result_zero]
    rfl
  · have hpos : a.toNat ≠ 0 := fun h => hne (BitVec.eq_of_toNat_eq h)
    have hfill : (fill a).toNat = 2 ^ (Nat.log 2 a.toNat + 1) - 1 :=
      toNat_fill_of_bounds (Nat.pow_log_le_self 2 hpos) (Nat.lt_pow_succ_log_self Nat.one_lt_two _)
    have hhalf : (fill a >>> 1).toNat = (fill a).toNat / 2 := by
      rw [BitVec.toNat_ushiftRight, Nat.shiftRight_eq_div_pow, Nat.pow_one]
    have hlt := (fill a).isLt
    apply BitVec.eq_of_toNat_eq
    rw [prevpow2Path, toNat_prevpow2Result hne, BitVec.toNat_sub, hhalf]
    rw [Nat.pow_succ] at hfill
    have := Nat.two_pow_pos (Nat.log 2 a.toNat)
    omega

/-- Settles O47: the cascade fills below the highest set bit, and the top bit of what it fills is that bit. -/
theorem fillCascadeComputesPrevpow2 : Obligations.FillCascadeComputesPrevpow2 :=
  ⟨fun _ _ _ => toNat_fill_of_bounds, fill_zero, fun a _ => answers_iff.mpr (prevpow2Path_eq a)⟩

/-! PARITY (R52): each fold keeps the exclusive or of the bits, in half as many places -/

theorem xorBits_add (m n : Nat) (f : Nat → Bool) :
    xorBits (m + n) f = Bool.xor (xorBits m f) (xorBits n fun i => f (m + i)) := by
  induction n with
  | zero => rw [xorBits_zero, Bool.xor_false, Nat.add_zero]
  | succ n ih => rw [← Nat.add_assoc, xorBits_succ, xorBits_succ, ih, Bool.xor_assoc]

theorem xorBits_congr {n : Nat} {f g : Nat → Bool} (h : ∀ i < n, f i = g i) : xorBits n f = xorBits n g := by
  induction n with
  | zero => rfl
  | succ n ih => rw [xorBits_succ, xorBits_succ, ih fun i hi => h i (by omega), h n (by omega)]

theorem xorBits_fold (m : Nat) (v : Word) : xorBits m (v ^^^ (v >>> m)).getLsbD = xorBits (m + m) v.getLsbD := by
  rw [xorBits_add, ← xorBits_xor]
  refine congrArg (xorBits m) (funext fun i => ?_)
  rw [BitVec.getLsbD_xor, BitVec.getLsbD_ushiftRight]

/-- The constant holds the parity of each nibble. -/
theorem parityTable_eq : ∀ n : BitVec 4, parityTable.getLsbD n.toNat = xorBits 4 n.getLsbD := by decide

theorem parityTable_lowNibble (v : Word) :
    parityTable.getLsbD (v.extractLsb' 0 4).toNat = xorBits 4 v.getLsbD := by
  rw [parityTable_eq]
  refine xorBits_congr fun i hi => ?_
  rw [BitVec.getLsbD_extractLsb', decide_eq_true hi, Bool.true_and, Nat.zero_add]

/-- Settles O48: 32 bits folded to 16, to 8 and to 4, and looked up. -/
theorem nibbleFoldComputesParity : Obligations.NibbleFoldComputesParity := by
  intro a s
  rw [answers_iff, result, parityPath, parityTable_lowNibble, xorBits_fold 4, xorBits_fold 8, xorBits_fold 16]
  rfl

/-! The leading zeros (44_parity_reverse.md) -/

theorem bitrevResult_zero : bitrevResult 0 = 0 := by decide

/-- Reversal takes the highest set bit to the lowest. -/
theorem lowestSet_bitrevResult {a : Word} {k : Nat} (h : highestSet a = some k) :
    lowestSet (bitrevResult a) = some (31 - k) := by
  obtain ⟨hk, hset, habove⟩ := highestSet_eq_some.mp h
  refine lowestSet_eq_some.mpr ⟨by omega, ?_, fun j hj => ?_⟩
  · rw [getLsbD_bitrevResult a (by omega), Nat.sub_sub_self (by omega), hset]
  · rw [getLsbD_bitrevResult a (by omega), habove _ (by omega) (by omega)]

theorem toNat_log2Result_of_highestSet {a : Word} {k : Nat} (h : highestSet a = some k) :
    (log2Result a).toNat = k := by
  rw [toNat_log2Result, ← highestSet_getD_zero, h, Option.getD_some]

/-- Settles O52: the highest set bit, counted from above and from below. -/
theorem ctzOfBitrevCountsLeadingZeros : Obligations.CtzOfBitrevCountsLeadingZeros := by
  intro a s
  refine ⟨bitrevResult a, ctzResult (bitrevResult a), log2Result a, answers_result _ s, answers_result _ s,
    answers_result _ s, ?_, fun hne => ?_⟩
  · rintro rfl
    rw [bitrevResult_zero, ctzResult_zero]
  · obtain ⟨k, hk⟩ := Option.ne_none_iff_exists'.mp (mt highestSet_eq_none.mp hne)
    obtain ⟨hlt, -⟩ := highestSet_eq_some.mp hk
    rw [toNat_ctzResult_of_lowestSet (lowestSet_bitrevResult hk), toNat_log2Result_of_highestSet hk]
    omega

end Sys2Proof.Machine
end

section
/-! The SWAR reduction of 42_count.md, and the proof of O45. A word is read as the sum of its fields, each with its weight:
the masks take every second field out exactly because a field's count fits the field, and the sum of two such words then
needs no argument about carries. -/

namespace Sys2Proof.Machine

/-! Numbers made of `n` fields of `k` bits -/

/-- The number whose `j`-th field, of weight `2^(k j)`, is `f j`. -/
def packFields (n k : Nat) (f : Nat → Nat) : Nat := ∑ j ∈ Finset.range n, f j * 2 ^ (k * j)

theorem packFields_succ (n k : Nat) (f : Nat → Nat) :
    packFields (n + 1) k f = 2 ^ (k * n) * f n + packFields n k f := by
  rw [packFields, Finset.sum_range_succ, Nat.add_comm, Nat.mul_comm (f n), packFields]

/-- The fields that keep their place when every second one is masked out. -/
def evenFields (f : Nat → Nat) (j : Nat) : Nat := if j % 2 = 0 then f j else 0

/-- Neighbouring fields added are the fields of twice the width; this holds of any values, also those that do not fit. -/
theorem packFields_even_add_odd (n k : Nat) (f : Nat → Nat) :
    packFields (2 * n) k (evenFields f) + packFields (2 * n) k (evenFields fun j => f (j + 1)) =
      packFields n (2 * k) fun j => f (2 * j) + f (2 * j + 1) := by
  induction n with
  | zero => rfl
  | succ n ih =>
    have heven (g : Nat → Nat) : evenFields g (2 * n) = g (2 * n) := if_pos (by omega)
    have hodd (g : Nat → Nat) : evenFields g (2 * n + 1) = 0 := if_neg (by omega)
    have hweight : 2 * k * n = k * (2 * n) := by ring
    rw [Nat.mul_succ, packFields_succ, packFields_succ, packFields_succ, packFields_succ, packFields_succ, ← ih, hweight]
    simp only [heven, hodd]
    ring

section
variable {k : Nat} {f : Nat → Nat} (hk : 0 < k) (hf : ∀ j, f j < 2 ^ k)
include hf

theorem evenFields_lt (j : Nat) : evenFields f j < 2 ^ k := by
  unfold evenFields
  split_ifs
  · exact hf j
  · exact Nat.two_pow_pos k

theorem packFields_lt (n : Nat) : packFields n k f < 2 ^ (k * n) := by
  induction n with
  | zero => simp [packFields]
  | succ n ih =>
    have hfield : 2 ^ (k * n) * (f n + 1) ≤ 2 ^ (k * n) * 2 ^ k := Nat.mul_le_mul_left _ (hf n)
    rw [packFields_succ, Nat.mul_succ, Nat.pow_add]
    rw [Nat.mul_succ] at hfield
    omega

include hk

/-- Fields whose values fit are read back bit by bit. -/
theorem testBit_packFields (n i : Nat) :
    (packFields n k f).testBit i = (decide (i / k < n) && (f (i / k)).testBit (i % k)) := by
  induction n with
  | zero => simp [packFields]
  | succ n ih =>
    have hdiv : k * (i / k) + i % k = i := Nat.div_add_mod i k
    have hmod : i % k < k := Nat.mod_lt i hk
    rw [packFields_succ, Nat.testBit_two_pow_mul_add _ (packFields_lt hf n), ih]
    obtain hlt | heq | hgt := Nat.lt_trichotomy (i / k) n
    · have hi : i < k * n := by rwa [Nat.mul_comm, ← Nat.div_lt_iff_lt_mul hk]
      simp [hi, hlt, Nat.lt_succ_of_lt hlt]
    · have hi : i - k * n = i % k := by rw [← heq]; omega
      have hge : ¬ i < k * n := by rw [← heq]; omega
      simp [hge, hi, heq]
    · have hge : k * (n + 1) ≤ i := (Nat.mul_le_mul_left k hgt).trans (Nat.mul_div_le i k)
      rw [Nat.mul_succ] at hge
      have hclear : (f n).testBit (i - k * n) = false :=
        Nat.testBit_lt_two_pow ((hf n).trans_le (Nat.pow_le_pow_right two_pos (by omega)))
      simp [hclear, show ¬ i < k * n by omega, show ¬ i / k < n + 1 by omega]

theorem getLsbD_packFields (n : Nat) {i : Nat} (hi : i < 32) :
    (BitVec.ofNat 32 (packFields n k f)).getLsbD i = (decide (i / k < n) && (f (i / k)).testBit (i % k)) := by
  rw [BitVec.getLsbD_ofNat, decide_eq_true hi, Bool.true_and, testBit_packFields hk hf]

end

/-! The reduction -/

section
variable {n k : Nat} {f : Nat → Nat} {mask : Word} (hwidth : k * (2 * n) = 32) (hf : ∀ j, f j < 2 ^ k)
  (hmask : ∀ i < 32, mask.getLsbD i = decide (i / k % 2 = 0))
include hwidth hf hmask

theorem packFields_and_mask :
    BitVec.ofNat 32 (packFields (2 * n) k f) &&& mask = BitVec.ofNat 32 (packFields (2 * n) k (evenFields f)) := by
  have hk : 0 < k := Nat.pos_of_ne_zero fun h => by simp [h] at hwidth
  apply BitVec.eq_of_getLsbD_eq
  intro i hi
  rw [BitVec.getLsbD_and, getLsbD_packFields hk hf _ hi, getLsbD_packFields hk (evenFields_lt hf) _ hi, hmask i hi, evenFields]
  split_ifs with h <;> simp [h]

theorem packFields_shift_and_mask :
    (BitVec.ofNat 32 (packFields (2 * n) k f) >>> k) &&& mask =
      BitVec.ofNat 32 (packFields (2 * n) k (evenFields fun j => f (j + 1))) := by
  have hk : 0 < k := Nat.pos_of_ne_zero fun h => by simp [h] at hwidth
  have hnext (j : Nat) : f (j + 1) < 2 ^ k := hf (j + 1)
  apply BitVec.eq_of_getLsbD_eq
  intro i hi
  rw [BitVec.getLsbD_and, BitVec.getLsbD_ushiftRight, getLsbD_packFields hk (evenFields_lt hnext) _ hi, hmask i hi,
    evenFields]
  have hfield : i / k < 2 * n := by rwa [Nat.div_lt_iff_lt_mul hk, Nat.mul_comm, hwidth]
  split_ifs with h
  · -- An even field has its neighbour inside the word.
    have hright : i / k + 1 < 2 * n := by omega
    have hi' : k + i < 32 := by
      have := Nat.mul_le_mul_left k (Nat.succ_le_of_lt hright)
      have hdiv : k * (i / k) + i % k = i := Nat.div_add_mod i k
      have hmod : i % k < k := Nat.mod_lt i hk
      rw [hwidth, Nat.mul_succ, Nat.mul_succ] at this
      omega
    rw [getLsbD_packFields hk hf _ hi', Nat.add_div_left i hk, Nat.add_mod_left]
    simp [h, hright, hfield]
  · simp [h]

/-- One step of the reduction, on fields whose values fit. -/
theorem swarStep_packFields :
    swarStep k mask (BitVec.ofNat 32 (packFields (2 * n) k f)) =
      BitVec.ofNat 32 (packFields n (2 * k) fun j => f (2 * j) + f (2 * j + 1)) := by
  rw [swarStep, packFields_and_mask hwidth hf hmask, packFields_shift_and_mask hwidth hf hmask, ← BitVec.ofNat_add,
    packFields_even_add_odd]

end

/-! The counts that the fields hold -/

/-- The set bits of `a` in its `j`-th block of `k` bits. -/
def blockCount (a : Word) (k j : Nat) : Nat := ∑ i ∈ Finset.range k, (a.getLsbD (k * j + i)).toNat

theorem blockCount_le (a : Word) (k j : Nat) : blockCount a k j ≤ k := by
  have hbit : ∀ i ∈ Finset.range k, (a.getLsbD (k * j + i)).toNat ≤ 1 := fun _ _ => Bool.toNat_le _
  simpa [blockCount] using Finset.sum_le_card_nsmul _ _ 1 hbit

/-- A count fits its field. -/
theorem blockCount_lt (a : Word) (k j : Nat) : blockCount a k j < 2 ^ k :=
  (blockCount_le a k j).trans_lt Nat.lt_two_pow_self

/-- A block is made of two neighbouring halves. -/
theorem blockCount_two_mul (a : Word) (k j : Nat) :
    blockCount a (2 * k) j = blockCount a k (2 * j) + blockCount a k (2 * j + 1) := by
  have hlow : 2 * k * j = k * (2 * j) := by ring
  have hhigh (i : Nat) : k * (2 * j) + (k + i) = k * (2 * j + 1) + i := by ring
  rw [blockCount, Nat.two_mul k, Finset.sum_range_add, ← Nat.two_mul, hlow]
  simp only [hhigh]
  rfl

theorem blockCount_whole (a : Word) : blockCount a 32 0 = popc a := by
  simp only [blockCount, Nat.mul_zero, Nat.zero_add]
  rfl

/-- The word whose `n` fields of `k` bits hold the counts of the blocks of `a`. -/
def countsWord (a : Word) (n k : Nat) : Word := BitVec.ofNat 32 (packFields n k (blockCount a k))

/-- A bit is its own count. -/
theorem countsWord_bits (a : Word) : countsWord a 32 1 = a := by
  apply BitVec.eq_of_getLsbD_eq
  intro i hi
  have hcount : blockCount a 1 i = (a.getLsbD i).toNat := by simp [blockCount]
  rw [countsWord, getLsbD_packFields Nat.one_pos (blockCount_lt a 1) 32 hi, Nat.div_one, Nat.mod_one, hcount,
    decide_eq_true hi, Bool.true_and]
  cases a.getLsbD i <;> rfl

theorem countsWord_whole (a : Word) : countsWord a 1 32 = popcntResult a := by
  rw [countsWord, packFields_succ, blockCount_whole, popcntResult]
  simp [packFields]

/-- One step of the reduction adds the counts of neighbouring blocks. -/
theorem swarStep_countsWord (a : Word) {n k : Nat} {mask : Word} (hwidth : k * (2 * n) = 32)
    (hmask : ∀ i < 32, mask.getLsbD i = decide (i / k % 2 = 0)) :
    swarStep k mask (countsWord a (2 * n) k) = countsWord a n (2 * k) := by
  rw [countsWord, swarStep_packFields hwidth (blockCount_lt a k) hmask, countsWord, funext (blockCount_two_mul a k)]

theorem popcntPath_eq (a : Word) : popcntPath a = popcntResult a := by
  have h1 : swarStep 1 0x55555555#32 (countsWord a 32 1) = countsWord a 16 2 :=
    swarStep_countsWord a (n := 16) (k := 1) rfl (by decide)
  have h2 : swarStep 2 0x33333333#32 (countsWord a 16 2) = countsWord a 8 4 :=
    swarStep_countsWord a (n := 8) (k := 2) rfl (by decide)
  have h4 : swarStep 4 0x0F0F0F0F#32 (countsWord a 8 4) = countsWord a 4 8 :=
    swarStep_countsWord a (n := 4) (k := 4) rfl (by decide)
  have h8 : swarStep 8 0x00FF00FF#32 (countsWord a 4 8) = countsWord a 2 16 :=
    swarStep_countsWord a (n := 2) (k := 8) rfl (by decide)
  have h16 : swarStep 16 0x0000FFFF#32 (countsWord a 2 16) = countsWord a 1 32 :=
    swarStep_countsWord a (n := 1) (k := 16) rfl (by decide)
  rw [countsWord_bits] at h1
  rw [popcntPath, h1, h2, h4, h8, h16, countsWord_whole]

/-- Settles O45: five steps from the bits to the count of the whole word. -/
theorem swarReductionComputesPopcnt : Obligations.SwarReductionComputesPopcnt :=
  fun a _ => answers_iff.mpr (popcntPath_eq a)

end Sys2Proof.Machine
end

section
/-! The cascades of 45_morton.md and the round trips: the proofs of O49, O50 and O51. Every stage of a cascade, spreading
or compacting, two coordinates or three, holds the same bits in groups of one size at one distance; a step of spreading
halves size and distance, and a step of compaction doubles them. -/

namespace Sys2Proof.Machine

/-- `v` holds the bits `y` in groups of `t`, the groups `w` places apart, and 0 between them. -/
def Spread (w t : Nat) (y : Nat → Bool) (v : Word) : Prop :=
  ∀ q r, r < w → w * q + r < 32 → v.getLsbD (w * q + r) = (decide (r < t) && y (t * q + r))

/-- The mask of such groups. -/
abbrev GroupMask (w t : Nat) (mask : Word) : Prop := ∀ i < 32, mask.getLsbD i = decide (i % w < t)

section
variable {w t k : Nat} {y : Nat → Bool} {v mask : Word}

theorem Spread.of_lt (h : Spread w t y v) {q r : Nat} (hr : r < t) (htw : t ≤ w) (hlt : w * q + r < 32) :
    v.getLsbD (w * q + r) = y (t * q + r) := by
  rw [h q r (by omega) hlt, decide_eq_true hr, Bool.true_and]

/-- Between the groups there is 0, and so there is beyond the word. -/
theorem Spread.of_ge (h : Spread w t y v) {q r : Nat} (hr : t ≤ r) (hrw : r < w) :
    v.getLsbD (w * q + r) = false := by
  obtain hlt | hge := Nat.lt_or_ge (w * q + r) 32
  · rw [h q r hrw hlt, decide_eq_false (Nat.not_lt.mpr hr), Bool.false_and]
  · exact BitVec.getLsbD_of_ge _ _ hge

theorem GroupMask.getLsbD_eq (hmask : GroupMask w t mask) {q r : Nat} (hr : r < w) (hlt : w * q + r < 32) :
    mask.getLsbD (w * q + r) = decide (r < t) := by
  rw [hmask _ hlt, Nat.mul_add_mod, Nat.mod_eq_of_lt hr]

/-- A number that fits its group is spread already. -/
theorem spread_of_toNat_lt (hv : v.toNat < 2 ^ t) (hw : 32 ≤ w) : Spread w t v.getLsbD v := by
  intro q r hr hlt
  obtain rfl : q = 0 := by
    by_contra hq
    have := Nat.mul_le_mul_left w (Nat.one_le_iff_ne_zero.mpr hq)
    omega
  rw [Nat.mul_zero, Nat.mul_zero, Nat.zero_add]
  obtain hrt | hrt := Nat.lt_or_ge r t
  · rw [decide_eq_true hrt, Bool.true_and]
  · rw [decide_eq_false (Nat.not_lt.mpr hrt), Bool.false_and]
    exact Nat.testBit_lt_two_pow (hv.trans_le (Nat.pow_le_pow_right two_pos hrt))

/-- The bits of a code at the multiples of `w`. -/
theorem spread_and_mask (code : Word) (hmask : GroupMask w 1 mask) :
    Spread w 1 (fun j => code.getLsbD (w * j)) (code &&& mask) := by
  intro q r hr hlt
  rw [BitVec.getLsbD_and, hmask.getLsbD_eq hr hlt, Bool.and_comm]
  by_cases h0 : r = 0 <;> simp [h0]

/-- A step of spreading: the upper half of each group moves up by the distance it lacks. -/
theorem Spread.spreadStep (h : Spread (2 * w) (2 * t) y v) (hk : k + t = w) (htk : t ≤ k) (hmask : GroupMask w t mask) :
    Spread w t y (spreadStep k mask v) := by
  intro q r hr hlt
  rw [getLsbD_spreadStep, hmask.getLsbD_eq hr hlt, decide_eq_true hlt, Bool.true_and, Bool.and_comm]
  obtain hrt | hrt := Nat.lt_or_ge r t
  · rw [decide_eq_true hrt, Bool.true_and, Bool.true_and]
    obtain ⟨p, rfl | rfl⟩ := Nat.even_or_odd' q
    · -- A lower half, which stays; what moves there comes from between two groups.
      have hplace : w * (2 * p) + r = 2 * w * p + r := by ring
      have hstay : v.getLsbD (w * (2 * p) + r) = y (t * (2 * p) + r) := by
        rw [hplace, h.of_lt (by omega) (by omega) (hplace ▸ hlt)]
        congr 1
        ring
      have hmove : (!decide (w * (2 * p) + r < k) && v.getLsbD (w * (2 * p) + r - k)) = false := by
        cases p with
        | zero => simp [show r < k by omega]
        | succ p =>
          have hfrom : w * (2 * (p + 1)) + r - k = 2 * w * p + (2 * w + r - k) := by
            rw [show w * (2 * (p + 1)) = 2 * w * p + 2 * w by ring]
            omega
          rw [hfrom, h.of_ge (by omega) (by omega), Bool.and_false]
      rw [hstay, hmove, Bool.or_false]
    · -- An upper half: its bits come from `k` places below, and before the step its place is between two groups.
      have hplace : w * (2 * p + 1) + r = 2 * w * p + (w + r) := by ring
      have hfrom : 2 * w * p + (w + r) - k = 2 * w * p + (t + r) := by omega
      have hstay : v.getLsbD (w * (2 * p + 1) + r) = false := by rw [hplace, h.of_ge (by omega) (by omega)]
      have hmove : v.getLsbD (w * (2 * p + 1) + r - k) = y (t * (2 * p + 1) + r) := by
        rw [hplace, hfrom, h.of_lt (by omega) (by omega) (by omega)]
        congr 1
        ring
      rw [hstay, hmove, hplace, decide_eq_false (by omega), Bool.not_false, Bool.true_and, Bool.false_or]
  · rw [decide_eq_false (Nat.not_lt.mpr hrt), Bool.false_and, Bool.false_and]

/-- A step of compaction: every second group moves down to the one below it. A group that would stand beyond the word
holds no bit. -/
theorem Spread.compactStep (h : Spread w t y v) (hk : k + t = w) (htk : t ≤ k)
    (hmask : GroupMask (2 * w) (2 * t) mask) (hy : ∀ q r, r < t → 32 ≤ w * q + r → y (t * q + r) = false) :
    Spread (2 * w) (2 * t) y (compactStep k mask v) := by
  intro q r hr hlt
  rw [getLsbD_compactStep, hmask.getLsbD_eq hr hlt, Bool.and_comm]
  have hplace : 2 * w * q = w * (2 * q) := by ring
  obtain hrt | hrt := Nat.lt_or_ge r (2 * t)
  · rw [decide_eq_true hrt, Bool.true_and, Bool.true_and]
    obtain hlow | hhigh := Nat.lt_or_ge r t
    · have hstay : v.getLsbD (2 * w * q + r) = y (2 * t * q + r) := by
        rw [hplace, h.of_lt hlow (by omega) (by omega)]
        congr 1
        ring
      have hmove : v.getLsbD (k + (2 * w * q + r)) = false := by
        rw [hplace, show k + (w * (2 * q) + r) = w * (2 * q) + (k + r) by ring, h.of_ge (by omega) (by omega)]
      rw [hstay, hmove, Bool.or_false]
    · have hstay : v.getLsbD (2 * w * q + r) = false := by rw [hplace, h.of_ge hhigh (by omega)]
      have hfrom : k + (2 * w * q + r) = w * (2 * q + 1) + (r - t) := by
        rw [hplace, Nat.mul_succ]
        omega
      have hbit : t * (2 * q + 1) + (r - t) = 2 * t * q + r := by
        rw [show t * (2 * q + 1) = 2 * t * q + t by ring]
        omega
      have hmove : v.getLsbD (k + (2 * w * q + r)) = y (2 * t * q + r) := by
        rw [hfrom, ← hbit]
        obtain hin | hout := Nat.lt_or_ge (w * (2 * q + 1) + (r - t)) 32
        · exact h.of_lt (by omega) (by omega) hin
        · rw [BitVec.getLsbD_of_ge _ _ hout, hy _ _ (by omega) hout]
      rw [hstay, hmove, Bool.false_or]
  · rw [decide_eq_false (Nat.not_lt.mpr hrt), Bool.false_and, Bool.false_and]

/-- Spread bits moved up by `c` stand at the places that are `c` above a multiple of the distance. -/
theorem Spread.getLsbD_shiftLeft (h : Spread w 1 y v) {c i r : Nat} (hc : c < w) (hr : r < w) (hlt : w * i + r < 32) :
    (v <<< c).getLsbD (w * i + r) = (decide (r = c) && y i) := by
  rw [BitVec.getLsbD_shiftLeft, decide_eq_true hlt, Bool.true_and]
  obtain hrc | rfl | hrc := Nat.lt_trichotomy r c
  · rw [decide_eq_false hrc.ne, Bool.false_and]
    cases i with
    | zero => simp [hrc]
    | succ i =>
      have hfrom : w * (i + 1) + r - c = w * i + (w + r - c) := by
        rw [Nat.mul_succ]
        omega
      rw [hfrom, h.of_ge (by omega) (by omega), Bool.and_false]
  · have hfrom : w * i + r - r = w * i + 0 := by omega
    rw [hfrom, h.of_lt Nat.one_pos (by omega) (by omega)]
    simp
  · have hfrom : w * i + r - c = w * i + (r - c) := by omega
    rw [hfrom, h.of_ge (by omega) (by omega), Bool.and_false, decide_eq_false hrc.ne', Bool.false_and]

end

/-! ILV2 and ILV3 (R54, R56) -/

/-- A mask of `n` ones leaves a number of `n` bits. -/
theorem toNat_and_lowMask_lt (v : Word) {n : Nat} (hn : n ≤ 32) : (v &&& BitVec.ofNat 32 (2 ^ n - 1)).toNat < 2 ^ n := by
  have hpow : 2 ^ n ≤ 2 ^ 32 := Nat.pow_le_pow_right two_pos hn
  have hpos := Nat.two_pow_pos n
  rw [BitVec.toNat_and, BitVec.toNat_ofNat, Nat.mod_eq_of_lt (by omega)]
  exact Nat.and_lt_two_pow _ (by omega)

/-- A mask of `n` ones, bit by bit: it keeps the low `n` bits and clears the others. -/
theorem getLsbD_and_lowMask_eq (v : Word) (n : Nat) {i : Nat} (hi : i < 32) :
    (v &&& BitVec.ofNat 32 (2 ^ n - 1)).getLsbD i = (decide (i < n) && v.getLsbD i) := by
  rw [BitVec.getLsbD_and, BitVec.getLsbD_ofNat, Nat.testBit_two_pow_sub_one, decide_eq_true hi, Bool.true_and,
    Bool.and_comm]

theorem getLsbD_and_low10 (v : Word) {i : Nat} (hi : i < 32) :
    (v &&& 0x000003FF#32).getLsbD i = (decide (i < 10) && v.getLsbD i) := getLsbD_and_lowMask_eq v 10 hi

theorem spread2_spec (x : Word) : Spread 2 1 (x &&& 0x0000FFFF#32).getLsbD (spread2 x) := by
  have h16 : Spread 32 16 _ _ := spread_of_toNat_lt (toNat_and_lowMask_lt x (n := 16) (by decide)) (by decide)
  have h8 : Spread 16 8 _ _ := h16.spreadStep (k := 8) (mask := 0x00FF00FF#32) rfl (by decide) (by decide)
  have h4 : Spread 8 4 _ _ := h8.spreadStep (k := 4) (mask := 0x0F0F0F0F#32) rfl (by decide) (by decide)
  have h2 : Spread 4 2 _ _ := h4.spreadStep (k := 2) (mask := 0x33333333#32) rfl (by decide) (by decide)
  exact h2.spreadStep (k := 1) (mask := 0x55555555#32) rfl (by decide) (by decide)

theorem spread3_spec (x : Word) : Spread 3 1 (x &&& 0x000003FF#32).getLsbD (spread3 x) := by
  have hfits : (x &&& 0x000003FF#32).toNat < 2 ^ 16 :=
    (toNat_and_lowMask_lt x (n := 10) (by decide)).trans (by decide)
  have h16 : Spread 48 16 _ _ := spread_of_toNat_lt hfits (by decide)
  have h8 : Spread 24 8 _ _ := h16.spreadStep (k := 16) (mask := 0xFF0000FF#32) rfl (by decide) (by decide)
  have h4 : Spread 12 4 _ _ := h8.spreadStep (k := 8) (mask := 0x0F00F00F#32) rfl (by decide) (by decide)
  have h2 : Spread 6 2 _ _ := h4.spreadStep (k := 4) (mask := 0xC30C30C3#32) rfl (by decide) (by decide)
  exact h2.spreadStep (k := 2) (mask := 0x49249249#32) rfl (by decide) (by decide)

/-- Bit `2i + r` of the path's code is bit `i` of the coordinate number `r`. -/
theorem getLsbD_ilv2Path (a b : Word) {i r : Nat} (hi : i < 16) (hr : r < 2) :
    (ilv2Path a b).getLsbD (2 * i + r) = (if r = 0 then a.getLsbD i else b.getLsbD i) := by
  have hlow (v : Word) : (v &&& 0x0000FFFF#32).getLsbD i = v.getLsbD i :=
    getLsbD_and_lowMask v (n := 16) hi (by omega)
  have ha := (spread2_spec a) i r hr (by omega)
  have hb := (spread2_spec b).getLsbD_shiftLeft (c := 1) (by decide) hr (by omega : 2 * i + r < 32)
  rw [ilv2Path, BitVec.getLsbD_or, ha, hb]
  obtain rfl | rfl : r = 0 ∨ r = 1 := by omega
  · simp [hlow]
  · simp [hlow]

theorem ilv2Path_eq (a b : Word) : ilv2Path a b = ilv2Result a b := by
  apply BitVec.eq_of_getLsbD_eq
  intro j hj
  obtain ⟨i, r, hr, rfl⟩ : ∃ i r, r < 2 ∧ j = 2 * i + r := ⟨j / 2, j % 2, by omega, by omega⟩
  rw [getLsbD_ilv2Path a b (by omega) hr, getLsbD_ilv2Result a b (by omega) hr]

/-- Bit `3i + r` of the path's code is bit `i` of the low ten bits of the coordinate number `r`. -/
theorem getLsbD_ilv3Path (a b c : Word) {i r : Nat} (hr : r < 3) (hlt : 3 * i + r < 32) :
    (ilv3Path a b c).getLsbD (3 * i + r) =
      ((if r = 0 then a else if r = 1 then b else c) &&& 0x000003FF#32).getLsbD i := by
  have ha := (spread3_spec a) i r hr hlt
  have hb := (spread3_spec b).getLsbD_shiftLeft (c := 1) (by decide) hr hlt
  have hc := (spread3_spec c).getLsbD_shiftLeft (c := 2) (by decide) hr hlt
  rw [ilv3Path, BitVec.getLsbD_or, BitVec.getLsbD_or, ha, hb, hc]
  obtain rfl | rfl | rfl : r = 0 ∨ r = 1 ∨ r = 2 := by omega
  · simp
  · simp
  · simp

theorem ilv3Path_eq (a b c : Word) : ilv3Path a b c = ilv3Result a b c := by
  apply BitVec.eq_of_getLsbD_eq
  intro j hj
  obtain ⟨i, r, hr, rfl⟩ : ∃ i r, r < 3 ∧ j = 3 * i + r := ⟨j / 3, j % 3, by omega, by omega⟩
  rw [getLsbD_ilv3Path a b c hr hj, getLsbD_and_low10 _ (by omega)]
  obtain hi | hi := Nat.lt_or_ge i 10
  · rw [getLsbD_ilv3Result a b c hi hr, decide_eq_true hi, Bool.true_and]
    split_ifs <;> rfl
  · rw [decide_eq_false (Nat.not_lt.mpr hi), Bool.false_and]
    exact (Nat.testBit_lt_two_pow
      ((toNat_ilv3Result_lt a b c).trans_le (Nat.pow_le_pow_right two_pos (by omega)))).symm

/-! DILV2 and DILV3 (R55, R57) -/

/-- Groups of 16 at a distance of at least a word: the low half alone. -/
theorem Spread.getLsbD_of_wide {w : Nat} {y : Nat → Bool} {v : Word} (h : Spread w 16 y v) (hw : 32 ≤ w) {i : Nat}
    (hi : i < 32) : v.getLsbD i = (decide (i < 16) && y i) := by
  simpa using h 0 i (by omega) (by omega)

theorem dilv2Path_eq (a b : Word) : dilv2Path a b = dilv2Result a b := by
  have hbeyond {j : Nat} (hj : 32 ≤ 2 * j) : (lsr a b).getLsbD (2 * j) = false := BitVec.getLsbD_of_ge _ _ hj
  have h1 : Spread 2 1 _ _ := spread_and_mask (lsr a b) (mask := 0x55555555#32) (by decide)
  have h2 : Spread 4 2 _ _ := h1.compactStep (k := 1) (mask := 0x33333333#32) rfl (by decide) (by decide)
    fun _ _ _ _ => hbeyond (by omega)
  have h4 : Spread 8 4 _ _ := h2.compactStep (k := 2) (mask := 0x0F0F0F0F#32) rfl (by decide) (by decide)
    fun _ _ _ _ => hbeyond (by omega)
  have h8 : Spread 16 8 _ _ := h4.compactStep (k := 4) (mask := 0x00FF00FF#32) rfl (by decide) (by decide)
    fun _ _ _ _ => hbeyond (by omega)
  have h16 : Spread 32 16 _ _ := h8.compactStep (k := 8) (mask := 0x0000FFFF#32) rfl (by decide) (by decide)
    fun _ _ _ _ => hbeyond (by omega)
  apply BitVec.eq_of_getLsbD_eq
  intro i hi
  rw [dilv2Path, h16.getLsbD_of_wide (by decide) hi, dilv2Result, getLsbD_ofBits, decide_eq_true hi, Bool.true_and]

/-- The last mask of DILV3 takes ten of the sixteen bits of its group. -/
theorem compactStep_16_low10 (v : Word) :
    compactStep 16 0x000003FF#32 v = compactStep 16 0x0000FFFF#32 v &&& 0x000003FF#32 := by
  rw [compactStep, compactStep, BitVec.and_assoc]
  rfl

theorem dilv3Path_eq (a b : Word) : dilv3Path a b = dilv3Result a b := by
  have hbeyond {j : Nat} (hj : 32 ≤ 3 * j) : (lsr a b).getLsbD (3 * j) = false := BitVec.getLsbD_of_ge _ _ hj
  have h1 : Spread 3 1 _ _ := spread_and_mask (lsr a b) (mask := 0x49249249#32) (by decide)
  have h2 : Spread 6 2 _ _ := h1.compactStep (k := 2) (mask := 0xC30C30C3#32) rfl (by decide) (by decide)
    fun _ _ _ _ => hbeyond (by omega)
  have h4 : Spread 12 4 _ _ := h2.compactStep (k := 4) (mask := 0x0F00F00F#32) rfl (by decide) (by decide)
    fun _ _ _ _ => hbeyond (by omega)
  have h8 : Spread 24 8 _ _ := h4.compactStep (k := 8) (mask := 0xFF0000FF#32) rfl (by decide) (by decide)
    fun _ _ _ _ => hbeyond (by omega)
  have h16 : Spread 48 16 _ _ := h8.compactStep (k := 16) (mask := 0x0000FFFF#32) rfl (by decide) (by decide)
    fun _ _ _ _ => hbeyond (by omega)
  apply BitVec.eq_of_getLsbD_eq
  intro i hi
  rw [dilv3Path, compactStep_16_low10, getLsbD_and_low10 _ hi, h16.getLsbD_of_wide (by decide) hi, dilv3Result,
    getLsbD_ofBits, decide_eq_true hi, Bool.true_and, ← Bool.and_assoc, ← Bool.decide_and]
  congr 2
  exact propext ⟨fun h => h.1, fun h => ⟨h, by omega⟩⟩

/-- Settles O49: the last stage of each cascade holds the bits of the definition. -/
theorem mortonCascadesComputeIlv2AndDilv2 : Obligations.MortonCascadesComputeIlv2AndDilv2 :=
  fun a b _ => ⟨answers_iff.mpr (ilv2Path_eq a b), answers_iff.mpr (dilv2Path_eq a b)⟩

/-- Settles O50: the last stage of each cascade holds the bits of the definition. -/
theorem mortonCascadesComputeIlv3AndDilv3 : Obligations.MortonCascadesComputeIlv3AndDilv3 :=
  fun a b c _ => ⟨answers_iff.mpr (ilv3Path_eq a b c), answers_iff.mpr (dilv3Path_eq a b)⟩

/-! The round trips -/

/-- A word below `2^n` that has the low `n` bits of `v` is `v` cut to them. -/
theorem eq_and_lowMask {u v : Word} {n : Nat} (hu : u.toNat < 2 ^ n)
    (hbits : ∀ i < n, u.getLsbD i = v.getLsbD i) : v &&& BitVec.ofNat 32 (2 ^ n - 1) = u := by
  apply BitVec.eq_of_getLsbD_eq
  intro i hi
  rw [getLsbD_and_lowMask_eq v n hi]
  obtain hlt | hge := Nat.lt_or_ge i n
  · rw [decide_eq_true hlt, Bool.true_and, hbits i hlt]
  · rw [decide_eq_false (Nat.not_lt.mpr hge), Bool.false_and]
    exact (Nat.testBit_lt_two_pow (hu.trans_le (Nat.pow_le_pow_right two_pos hge))).symm

/-- De-interleaving at `k` reads the coordinate number `k` of an ILV2 code. -/
theorem dilv2Result_ilv2Result (x y b : Word) (hb : b.toNat < 2) :
    (if b.toNat = 0 then x else y) &&& 0xFFFF#32 = dilv2Result (ilv2Result x y) b := by
  refine eq_and_lowMask (n := 16) (toNat_dilv2Result_lt _ b) fun i hi => ?_
  rw [getLsbD_dilv2Result _ b hi, Nat.mod_eq_of_lt (by omega), decide_eq_true (by omega), Bool.true_and,
    getLsbD_ilv2Result x y hi hb]
  split_ifs <;> rfl

/-- De-interleaving at `k` reads the coordinate number `k` of an ILV3 code. -/
theorem dilv3Result_ilv3Result (x y z b : Word) (hb : b.toNat < 3) :
    (if b.toNat = 0 then x else if b.toNat = 1 then y else z) &&& 0x3FF#32 = dilv3Result (ilv3Result x y z) b := by
  refine eq_and_lowMask (n := 10) (toNat_dilv3Result_lt _ b) fun i hi => ?_
  rw [getLsbD_dilv3Result _ b hi, Nat.mod_eq_of_lt (by omega), decide_eq_true (by omega), Bool.true_and,
    getLsbD_ilv3Result x y z hi hb]
  split_ifs <;> rfl

/-- Settles O51: each coordinate, at its own offset. -/
theorem mortonCodesRoundTrip : Obligations.MortonCodesRoundTrip :=
  fun x y z s => ⟨⟨ilv2Result x y, answers_result _ s,
      answers_iff.mpr (dilv2Result_ilv2Result x y 0 (by decide)),
      answers_iff.mpr (dilv2Result_ilv2Result x y 1 (by decide))⟩,
    ilv3Result x y z, answers_result _ s, answers_iff.mpr (dilv3Result_ilv3Result x y z 0 (by decide)),
    answers_iff.mpr (dilv3Result_ilv3Result x y z 1 (by decide)),
    answers_iff.mpr (dilv3Result_ilv3Result x y z 2 (by decide))⟩

end Sys2Proof.Machine
end

section
/-! NEXTCOMB (46_nextcomb.md, R58, R74): the proof of O53. A word that meets the caller's obligation is `H 0 1…1 0…0` in
binary; the formula gives `H 1 0…0 1…1`, one of the ones moved up by one place and the others to the bottom. That no word
between has as many set bits is a fact on numbers: `n` set bits need a number of at least `2^n - 1`. -/

namespace Sys2Proof.Machine

/-! Counting the set bits of a number -/

/-- The number of set bits among the low `n` bits of `x`. -/
def bitCount (n x : Nat) : Nat := ∑ i ∈ Finset.range n, (x.testBit i).toNat

theorem popc_eq_bitCount (a : Word) : popc a = bitCount 32 a.toNat := rfl

theorem bitCount_zero_right (n : Nat) : bitCount n 0 = 0 := by simp [bitCount]

theorem bitCount_congr {n x y : Nat} (h : ∀ i < n, x.testBit i = y.testBit i) : bitCount n x = bitCount n y :=
  Finset.sum_congr rfl fun i hi => by rw [h i (Finset.mem_range.mp hi)]

/-- The set bits are those of the low part and those of the rest. -/
theorem bitCount_add (m n x : Nat) : bitCount (m + n) x = bitCount m (x % 2 ^ m) + bitCount n (x / 2 ^ m) := by
  have hlow : bitCount m (x % 2 ^ m) = bitCount m x :=
    bitCount_congr fun i hi => by rw [Nat.testBit_mod_two_pow, decide_eq_true hi, Bool.true_and]
  rw [hlow, bitCount, Finset.sum_range_add]
  simp only [bitCount, Nat.testBit_div_two_pow, Nat.add_comm]

theorem bitCount_one_right {x : Nat} (hx : x < 2) : bitCount 1 x = x := by
  obtain rfl | rfl : x = 0 ∨ x = 1 := by omega
  · rfl
  · rfl

theorem bitCount_of_lt {n x : Nat} (hx : x < 2 ^ n) : bitCount (n + 1) x = bitCount n x := by
  rw [bitCount_add, Nat.mod_eq_of_lt hx, Nat.div_eq_of_lt hx, bitCount_zero_right, Nat.add_zero]

theorem bitCount_two_pow_add {n x : Nat} (hx : x < 2 ^ n) : bitCount (n + 1) (2 ^ n + x) = bitCount n x + 1 := by
  rw [bitCount_add, Nat.add_mod_left, Nat.mod_eq_of_lt hx, Nat.add_div_left x (Nat.two_pow_pos n), Nat.div_eq_of_lt hx]
  rfl

/-- A number with `c` set bits is at least `2^c - 1`. By induction on the places, the lowest first. -/
theorem two_pow_bitCount_le (n x : Nat) : 2 ^ bitCount n x ≤ x + 1 := by
  induction n generalizing x with
  | zero => simp [bitCount]
  | succ n ih =>
    have hhalf := ih (x / 2)
    rw [Nat.add_comm n, bitCount_add, Nat.pow_one, bitCount_one_right (Nat.mod_lt x two_pos), Nat.pow_add]
    obtain h | h := Nat.mod_two_eq_zero_or_one x <;> rw [h] <;> omega

/-- The complement in `n` places has the places that are left. -/
theorem bitCount_complement {n x : Nat} (hx : x < 2 ^ n) : bitCount n (2 ^ n - (x + 1)) + bitCount n x = n := by
  have hbit : ∀ i ∈ Finset.range n, ((2 ^ n - (x + 1)).testBit i).toNat + (x.testBit i).toNat = 1 := by
    intro i hi
    rw [Nat.testBit_two_pow_sub_succ hx, decide_eq_true (Finset.mem_range.mp hi), Bool.true_and]
    cases x.testBit i <;> rfl
  rw [bitCount, bitCount, ← Finset.sum_add_distrib, Finset.sum_congr rfl hbit]
  simp

/-- `m` ones. -/
theorem bitCount_two_pow_sub_one {n m : Nat} (h : m ≤ n) : bitCount n (2 ^ m - 1) = m := by
  have hlt : 2 ^ m - 1 < 2 ^ m := Nat.sub_one_lt (Nat.two_pow_pos m).ne'
  have hones : bitCount m (2 ^ m - 1) = m := by simpa [bitCount_zero_right] using bitCount_complement (Nat.two_pow_pos m)
  obtain ⟨d, rfl⟩ := Nat.exists_eq_add_of_le h
  rw [bitCount_add, Nat.mod_eq_of_lt hlt, Nat.div_eq_of_lt hlt, bitCount_zero_right, Nat.add_zero, hones]

/-! The low `j + 1` bits before and after -/

/-- `0 1…1 0…0` with the ones at the places `z` to `j - 1`. -/
def combLow (z j : Nat) : Nat := 2 ^ j - 2 ^ z

/-- `1 0…0 1…1` with as many ones, the first at place `j`. -/
def nextLow (z j : Nat) : Nat := 2 ^ j + (2 ^ (j - z - 1) - 1)

theorem combLow_lt (z j : Nat) : combLow z j < 2 ^ j := Nat.sub_lt (Nat.two_pow_pos j) (Nat.two_pow_pos z)

section
variable {z j : Nat} (hzj : z < j)
include hzj

theorem nextLow_rest_lt : 2 ^ (j - z - 1) - 1 < 2 ^ j := by
  have hpow : 2 ^ (j - z - 1) ≤ 2 ^ j := Nat.pow_le_pow_right two_pos (by omega)
  have hpos := Nat.two_pow_pos (j - z - 1)
  omega

theorem nextLow_lt : nextLow z j < 2 ^ (j + 1) := by
  have hrest := nextLow_rest_lt hzj
  rw [nextLow, Nat.pow_succ]
  omega

theorem bitCount_combLow : bitCount (j + 1) (combLow z j) = j - z := by
  have hpow : 2 ^ z < 2 ^ j := Nat.pow_lt_pow_right Nat.one_lt_two hzj
  have hpos := Nat.two_pow_pos z
  have hcomp := bitCount_complement (n := j) (x := 2 ^ z - 1) (by omega)
  rw [Nat.sub_add_cancel hpos, bitCount_two_pow_sub_one hzj.le] at hcomp
  rw [bitCount_of_lt (combLow_lt z j), combLow]
  omega

theorem bitCount_nextLow : bitCount (j + 1) (nextLow z j) = j - z := by
  rw [nextLow, bitCount_two_pow_add (nextLow_rest_lt hzj), bitCount_two_pow_sub_one (by omega)]
  omega

/-- No number between the two has as many set bits: below `2^j` the zeros of such a number would not fit below it, and
from `2^j` on its other ones would not. -/
theorem nextLow_le_of_bitCount {w : Nat} (hw : w < 2 ^ (j + 1)) (hgt : combLow z j < w)
    (hcount : bitCount (j + 1) w = j - z) : nextLow z j ≤ w := by
  obtain hlt | hge := Nat.lt_or_ge w (2 ^ j)
  · have hcomp := bitCount_complement hlt
    have hzeros := two_pow_bitCount_le j (2 ^ j - (w + 1))
    rw [bitCount_of_lt hlt] at hcount
    rw [show bitCount j (2 ^ j - (w + 1)) = z by omega] at hzeros
    rw [combLow] at hgt
    omega
  · obtain ⟨u, rfl⟩ := Nat.exists_eq_add_of_le hge
    rw [Nat.pow_succ] at hw
    have hones := two_pow_bitCount_le j u
    rw [bitCount_two_pow_add (by omega)] at hcount
    rw [show bitCount j u = j - z - 1 by omega] at hones
    rw [nextLow]
    omega

end

/-! The word of a caller who meets the obligation, and what the formula makes of it -/

/-- `a` is `H 0 1…1 0…0` in binary: `z` zeros at the bottom, ones up to the zero at place `j`, and `h` above it. -/
structure IsComb (a : Word) (z j h : Nat) : Prop where
  lt_zero : z < j
  lt_width : j < 32
  toNat_eq : a.toNat = 2 ^ (j + 1) * h + combLow z j

section
variable {a : Word} {z j h : Nat}

/-- `t` of R58: the trailing zeros are filled, and nothing else changes. -/
theorem getLsbD_nextcombFilled (hz : lowestSet a = some z) {i : Nat} (hi : i < 32) :
    (nextcombFilled a).getLsbD i = (a.getLsbD i || decide (i ≤ z)) := by
  rw [nextcombFilled, BitVec.getLsbD_or, getLsbD_sub_one_of_lowestSet hz hi]
  cases a.getLsbD i <;> simp

theorem testBit_combLow (i : Nat) (hzj : z < j) : (combLow z j).testBit i = (decide (i < j) && !decide (i < z)) := by
  have hpow : 2 ^ z < 2 ^ j := Nat.pow_lt_pow_right Nat.one_lt_two hzj
  have hpos := Nat.two_pow_pos z
  rw [combLow, ← Nat.sub_add_cancel hpos, Nat.testBit_two_pow_sub_succ (by omega), Nat.testBit_two_pow_sub_one]

/-- The lowest clear bit of `t` is the zero above the ones. -/
theorem isComb_of_lowestSet (hz : lowestSet a = some z) (hj : lowestSet (~~~(nextcombFilled a)) = some j) :
    IsComb a z j (a.toNat / 2 ^ (j + 1)) := by
  obtain ⟨hz32, hset, hbelow⟩ := lowestSet_eq_some.mp hz
  obtain ⟨hj32, hclear, hfilled⟩ := lowestSet_eq_some.mp hj
  have hbit {i : Nat} (hi : i < 32) :
      (~~~(nextcombFilled a)).getLsbD i = !(a.getLsbD i || decide (i ≤ z)) := by
    rw [BitVec.getLsbD_not, decide_eq_true hi, Bool.true_and, getLsbD_nextcombFilled hz hi]
  have hzero : a.getLsbD j = false ∧ z < j := by
    rw [hbit hj32] at hclear
    simpa using hclear
  obtain ⟨hzero, hzj⟩ := hzero
  have hlow : a.toNat % 2 ^ (j + 1) = combLow z j := by
    apply Nat.eq_of_testBit_eq
    intro i
    rw [Nat.testBit_mod_two_pow, testBit_combLow i hzj]
    obtain hlt | rfl | hgt := Nat.lt_trichotomy i j
    · have hone : z < i → a.getLsbD i = true := by
        intro hzi
        have := hfilled i hlt
        rw [hbit (by omega)] at this
        simpa [Nat.not_le.mpr hzi] using this
      rw [decide_eq_true (Nat.lt_succ_of_lt hlt), decide_eq_true hlt, Bool.true_and, Bool.true_and]
      obtain hiz | rfl | hiz := Nat.lt_trichotomy i z
      · rw [decide_eq_true hiz]
        exact hbelow i hiz
      · rw [decide_eq_false (Nat.lt_irrefl i)]
        exact hset
      · rw [decide_eq_false hiz.not_gt]
        exact hone hiz
    · rw [decide_eq_true (Nat.lt_succ_self i), decide_eq_false (Nat.lt_irrefl i), Bool.true_and, Bool.false_and]
      exact hzero
    · rw [decide_eq_false (by omega), decide_eq_false hgt.not_gt, Bool.false_and, Bool.false_and]
  exact ⟨hzj, hj32, by rw [← hlow, Nat.div_add_mod]⟩

/-- `t` of R58 as one disjunction with the ones that fill the trailing zeros. -/
theorem nextcombFilled_eq_or_ones (hz : lowestSet a = some z) :
    nextcombFilled a = a ||| BitVec.ofNat 32 (2 ^ z - 1) := by
  obtain ⟨-, hset, -⟩ := lowestSet_eq_some.mp hz
  apply BitVec.eq_of_getLsbD_eq
  intro i hi
  rw [getLsbD_nextcombFilled hz hi, BitVec.getLsbD_or, BitVec.getLsbD_ofNat, Nat.testBit_two_pow_sub_one,
    decide_eq_true hi, Bool.true_and]
  obtain rfl | hne := eq_or_ne i z
  · rw [hset, Bool.true_or, Bool.true_or]
  · rw [decide_eq_decide.mpr (Nat.lt_iff_le_and_ne.trans (and_iff_left hne)).symm]

theorem IsComb.toNat_nextcombFilled (hc : IsComb a z j h) (hz : lowestSet a = some z) :
    (nextcombFilled a).toNat + 1 = 2 ^ (j + 1) * h + 2 ^ j := by
  obtain ⟨hzj, hj, ha⟩ := hc
  have hlt : 2 ^ z < 2 ^ j := Nat.pow_lt_pow_right Nat.one_lt_two hzj
  have hle : 2 ^ j ≤ 2 ^ 32 := Nat.pow_le_pow_right two_pos hj.le
  have hpos := Nat.two_pow_pos z
  have hdvd : 2 ^ z ∣ a.toNat := by
    rw [ha, combLow]
    exact Nat.dvd_add ((Nat.pow_dvd_pow 2 (by omega)).mul_right h)
      (Nat.dvd_sub (Nat.pow_dvd_pow 2 hzj.le) dvd_rfl)
  have hsum : (nextcombFilled a).toNat = a.toNat + (2 ^ z - 1) := by
    rw [nextcombFilled_eq_or_ones hz, BitVec.toNat_or, BitVec.toNat_ofNat, Nat.mod_eq_of_lt (by omega),
      or_eq_add_of_dvd hdvd (by omega)]
  rw [hsum, ha, combLow]
  omega

/-- `g` of R58, shifted: the ones that go to the bottom. -/
theorem toNat_shifted_nextcombGap (hzj : z < j) (hz : lowestSet a = some z)
    (hj : lowestSet (~~~(nextcombFilled a)) = some j) :
    (lsr (nextcombGap a) (ctzResult a + 1)).toNat = 2 ^ (j - z - 1) - 1 := by
  obtain ⟨hj32, -⟩ := lowestSet_eq_some.mp hj
  have hgap : (nextcombGap a).toNat = 2 ^ j - 1 := by
    have hbit : (BitVec.twoPow 32 j).toNat = 2 ^ j := BitVec.toNat_twoPow_of_lt hj32
    have hne : BitVec.twoPow 32 j ≠ 0 := fun h0 => (Nat.two_pow_pos j).ne' (hbit.symm.trans (congrArg _ h0))
    have hdec := toNat_decrement_add_one hne
    rw [nextcombGap, and_neg_eq_twoPow hj]
    omega
  rw [lsr, shiftAmount_add_one, toNat_ctzResult_of_lowestSet hz, Nat.mod_eq_of_lt (by omega), BitVec.toNat_ushiftRight,
    hgap]
  apply Nat.eq_of_testBit_eq
  intro i
  rw [Nat.testBit_shiftRight, Nat.testBit_two_pow_sub_one, Nat.testBit_two_pow_sub_one, decide_eq_decide]
  omega

end

theorem callerMeets_nextcomb {a : Word} :
    callerMeets (.nextcomb a) = true ↔ a ≠ 0 ∧ nextcombFilled a ≠ 0xFFFFFFFF := by
  simp [callerMeets, nextcombFilled]

/-- The obligation of R74 names the words of the form `H 0 1…1 0…0`, and the formula makes `H 1 0…0 1…1` of them. -/
theorem exists_isComb {a : Word} (h : callerMeets (.nextcomb a) = true) :
    ∃ z j h, IsComb a z j h ∧ (nextcombResult a).toNat = 2 ^ (j + 1) * h + nextLow z j := by
  obtain ⟨hne, hfull⟩ := callerMeets_nextcomb.mp h
  obtain ⟨z, hz⟩ := exists_lowestSet hne
  have hnot : ~~~(nextcombFilled a) ≠ 0 := fun h0 => hfull (by rw [← BitVec.not_not (b := nextcombFilled a), h0]; rfl)
  obtain ⟨j, hj⟩ := exists_lowestSet hnot
  have hc := isComb_of_lowestSet hz hj
  have hinc : (nextcombFilled a + 1).toNat = 2 ^ j * (2 * (a.toNat / 2 ^ (j + 1)) + 1) := by
    have hwrap : (nextcombFilled a).toNat ≠ 0xFFFFFFFF := fun hall => hfull (BitVec.eq_of_toNat_eq hall)
    have hlt := (nextcombFilled a).isLt
    rw [BitVec.toNat_add_of_lt (show _ + 1 < 2 ^ 32 by omega)]
    refine (hc.toNat_nextcombFilled hz).trans ?_
    ring
  refine ⟨z, j, _, hc, ?_⟩
  rw [nextcombResult, BitVec.toNat_or, toNat_shifted_nextcombGap hc.lt_zero hz hj, hinc,
    or_eq_add_of_dvd (Nat.dvd_mul_right _ _) (nextLow_rest_lt hc.lt_zero), nextLow]
  ring

/-- The set bits of a word, split at place `j`. -/
theorem popc_eq_bitCount_add {w : Word} {j : Nat} (hj : j < 32) :
    popc w = bitCount (j + 1) (w.toNat % 2 ^ (j + 1)) + bitCount (31 - j) (w.toNat / 2 ^ (j + 1)) := by
  have hwidth : 32 = (j + 1) + (31 - j) := by omega
  rw [popc_eq_bitCount, ← bitCount_add, ← hwidth]

/-- The same, for a word given by its parts. -/
theorem popc_of_toNat_eq {w : Word} {j h low : Nat} (hj : j < 32) (hlow : low < 2 ^ (j + 1))
    (hw : w.toNat = 2 ^ (j + 1) * h + low) : popc w = bitCount (j + 1) low + bitCount (31 - j) h := by
  rw [popc_eq_bitCount_add hj, hw, Nat.mul_add_mod, Nat.mod_eq_of_lt hlow, Nat.mul_add_div (Nat.two_pow_pos _),
    Nat.div_eq_of_lt hlow, Nat.add_zero h]

/-- Settles O53: the two words have the same bits above place `j`. A greater word has more above it, or the same and a
greater low part, with as many set bits. -/
theorem nextcombIsTheLeastGreaterWordOfEqualCount : Obligations.NextcombIsTheLeastGreaterWordOfEqualCount := by
  intro a s hmeets
  obtain ⟨z, j, h, ⟨hzj, hj, ha⟩, hv⟩ := exists_isComb hmeets
  have hnext := nextLow_lt hzj
  have hcomb := combLow_lt z j
  have hpow : 2 ^ (j + 1) = 2 * 2 ^ j := Nat.pow_succ'
  have hcount : popc a = j - z + bitCount (31 - j) h := by
    rw [popc_of_toNat_eq hj (by omega) ha, bitCount_combLow hzj]
  refine ⟨nextcombResult a, answers_result _ s, ?_, ?_, fun w hgt hw => ?_⟩
  · rw [ha, hv, nextLow]
    omega
  · rw [hcount, popc_of_toNat_eq hj hnext hv, bitCount_nextLow hzj]
  · have hsplit : 2 ^ (j + 1) * (w.toNat / 2 ^ (j + 1)) + w.toNat % 2 ^ (j + 1) = w.toNat := Nat.div_add_mod _ _
    have hmod : w.toNat % 2 ^ (j + 1) < 2 ^ (j + 1) := Nat.mod_lt _ (Nat.two_pow_pos _)
    rw [popc_eq_bitCount_add hj, hcount] at hw
    obtain hlt | heq | hmore := Nat.lt_trichotomy (w.toNat / 2 ^ (j + 1)) h
    · have := Nat.mul_le_mul_left (2 ^ (j + 1)) hlt
      rw [Nat.mul_succ] at this
      omega
    · rw [heq] at hsplit hw
      have hle := nextLow_le_of_bitCount hzj hmod (by omega) (by omega)
      omega
    · have := Nat.mul_le_mul_left (2 ^ (j + 1)) hmore
      rw [Nat.mul_succ] at this
      omega

end Sys2Proof.Machine
end

section
/-! Operands that break the caller's obligation (R66, R74), and the proof of O54: what breaking it means, row by row, and
the rule's value there. -/

namespace Sys2Proof.Machine

section
variable {a : Word}

theorem callerMeets_abs_eq_false : callerMeets (.abs a) = false ↔ a = 0x80000000 := by simp [callerMeets]

theorem callerMeets_ispow2_eq_false : callerMeets (.ispow2 a) = false ↔ a = 0x80000000 := by simp [callerMeets]

theorem callerMeets_log2_eq_false : callerMeets (.log2 a) = false ↔ a = 0 := by simp [callerMeets]

theorem callerMeets_log10_eq_false : callerMeets (.log10 a) = false ↔ a.toInt < 0 := by simp [callerMeets]

theorem callerMeets_prevpow2_eq_false : callerMeets (.prevpow2 a) = false ↔ a.toInt < 0 := by simp [callerMeets]

/-- A negative word is above `2^30` as a number, like the positive ones that are too great. -/
theorem callerMeets_nextpow2_eq_false : callerMeets (.nextpow2 a) = false ↔ 2 ^ 30 < a.toNat := by
  rw [callerMeets, decide_eq_false_iff_not, BitVec.toInt_eq_toNat_cond]
  have hlt := a.isLt
  split_ifs <;> omega

end

theorem abs_of_broken {a : Word} (h : callerMeets (.abs a) = false) : absResult a = 0x80000000 := by
  rw [callerMeets_abs_eq_false.mp h, absResult_intMin]

theorem ispow2_of_broken {a : Word} (h : callerMeets (.ispow2 a) = false) : ispow2Result a = 1 := by
  rw [callerMeets_ispow2_eq_false.mp h, ispow2Result_intMin]

theorem log2_of_broken {a : Word} (h : callerMeets (.log2 a) = false) : log2Result a = 0 := by
  rw [callerMeets_log2_eq_false.mp h, log2Result_zero]

theorem log10_of_broken {a : Word} (h : callerMeets (.log10 a) = false) : log10Result a = 0 :=
  log10Result_of_lt_one ((callerMeets_log10_eq_false.mp h).trans Int.zero_lt_one)

theorem nextpow2_of_broken {a : Word} (h : callerMeets (.nextpow2 a) = false) :
    nextpow2Result a = 0x80000000 ∨ nextpow2Result a = 0 := by
  have hgt : 2 ^ 30 < a.toNat := callerMeets_nextpow2_eq_false.mp h
  obtain hmore | hle := Nat.lt_or_ge (2 ^ 31) a.toNat
  · exact .inr (nextpow2Result_of_pow_31_lt hmore)
  · exact .inl (nextpow2Result_of_le_pow_31 hgt hle)

theorem prevpow2_of_broken {a : Word} (h : callerMeets (.prevpow2 a) = false) : prevpow2Result a = 0x80000000 :=
  prevpow2Result_of_neg (callerMeets_prevpow2_eq_false.mp h)

/-- Operands cut to 16 bits are in the range of ILV2. -/
theorem callerMeets_ilv2_lowBits (a b : Word) : callerMeets (.ilv2 (a &&& 0xFFFF) (b &&& 0xFFFF)) = true :=
  decide_eq_true ⟨toNat_and_lowMask_lt a (n := 16) (by decide), toNat_and_lowMask_lt b (n := 16) (by decide)⟩

/-- Operands cut to 10 bits are in the range of ILV3. -/
theorem callerMeets_ilv3_lowBits (a b c : Word) :
    callerMeets (.ilv3 (a &&& 0x3FF) (b &&& 0x3FF) (c &&& 0x3FF)) = true :=
  decide_eq_true ⟨toNat_and_lowMask_lt a (n := 10) (by decide), toNat_and_lowMask_lt b (n := 10) (by decide),
    toNat_and_lowMask_lt c (n := 10) (by decide)⟩

/-- For the three coordinates of DILV3 the ten places reach up to bit 29. -/
theorem dilv3Result_low30 (a : Word) {b : Word} (hb : b.toNat ≤ 2) :
    dilv3Result (a &&& 0x3FFFFFFF) b = dilv3Result a b := by
  apply ofBits_congr
  intro i hi
  by_cases hlt : i < 10
  · have hplace : shiftAmount b + 3 * i < 30 := by
      rw [shiftAmount]
      omega
    have hlow : (a &&& 0x3FFFFFFF).getLsbD (shiftAmount b + 3 * i) = a.getLsbD (shiftAmount b + 3 * i) :=
      getLsbD_and_lowMask a (n := 30) hplace (by omega)
    rw [getLsbD_lsr, getLsbD_lsr, hlow]
  · rw [decide_eq_false hlt, Bool.false_and, Bool.false_and]

/-- Settles O54: every instruction completes, and each row of the table is the value of the instruction's rule. -/
theorem brokenObligationsAreAnsweredAsTabled : Obligations.BrokenObligationsAreAnsweredAsTabled := by
  refine ⟨fun i s _ => ⟨result i, answers_result i s⟩,
    fun a s h => answers_iff.mpr (abs_of_broken h).symm,
    fun a s h => answers_iff.mpr (ispow2_of_broken h).symm,
    fun a s h => answers_iff.mpr (log2_of_broken h).symm,
    fun a s h => answers_iff.mpr (log10_of_broken h).symm,
    fun a s h => ?nextpow2,
    fun a s h => answers_iff.mpr (prevpow2_of_broken h).symm,
    fun a b s _ => ⟨callerMeets_ilv2_lowBits a b, ilv2Result a b, answers_result _ s,
      answers_iff.mpr (ilv2Result_lowBits a b).symm⟩,
    fun a b c s _ => ⟨callerMeets_ilv3_lowBits a b c, ilv3Result a b c, answers_result _ s,
      answers_iff.mpr (ilv3Result_lowBits a b c).symm⟩,
    fun a b s _ => ⟨dilv2Result a b, answers_result _ s, toNat_dilv2Result_lt a b,
      fun _ => getLsbD_dilv2Result a b⟩,
    fun a b s _ => ⟨dilv3Result a b, answers_result _ s, toNat_dilv3Result_lt a b,
      fun _ => getLsbD_dilv3Result a b, fun hb => answers_iff.mpr (dilv3Result_low30 a hb).symm⟩,
    fun a s _ => ⟨ctzResult a, nextcombFilled a, ~~~(nextcombFilled a), nextcombGap a, answers_result _ s, rfl, rfl,
      rfl, answers_iff.mpr (nextcombResult_eq_ushiftRight a).symm⟩⟩
  case nextpow2 =>
    obtain hmin | hzero := nextpow2_of_broken h
    · exact .inl (answers_iff.mpr hmin.symm)
    · exact .inr (answers_iff.mpr hzero.symm)

end Sys2Proof.Machine
end
